-- ==== Sys2Proof/Word.lean ====
section
/-! DEFINITION. The word types of the 3240: halfwords of the register window, cells, frame numbers, offsets. -/

namespace Sys2Proof

/-- A halfword, the width of one window location (spec/00 section 1.5). -/
abbrev Half := BitVec 16

/-- The value of a cell or sample: 24 bits, two's complement (spec/00 section 1.6). -/
abbrev Sample := BitVec 24

/-- A frame number, the width of FSEQ (R63). -/
abbrev FrameNo := BitVec 32

/-- A window offset on A[6:0] (R151). -/
abbrev Offset := BitVec 7

/-- A request tag (R72). -/
abbrev Tag := BitVec 8

end Sys2Proof
end

