-- ==== Sys2Proof/Syntax.lean ====
section
/-! DEFINITION. The commands: one constructor per row of spec/opcode_table.json. -/

namespace Sys2Proof

/-- A writable pair of the window (R138). -/
inductive WritePair where
  | data
  | input (slot : Fin 16)
deriving DecidableEq, Repr

/-- A command to the block. A host access carries the halfword written; a row that takes an entry from
the request queue has no operand, since the entry holds its arguments (R72). -/
inductive Instr where
  /-- TICK_ARRIVAL: a rising edge at FCK (R48). -/
  | tickArrival
  /-- STEP: the STEP bit of a CTRL write (R44). -/
  | step
  /-- ENGINE_GO (R45). -/
  | engineGo
  /-- ENGINE_STOP (R46). -/
  | engineStop
  /-- TICK_SOURCE: the tick-source field of a CTRL write, bits 8-9 (R44, R143). -/
  | tickSource (field : BitVec 2)
  /-- SOFT_RESET (R144). -/
  | softReset
  /-- DEVICE_RESET: RST# is asserted (R145). -/
  | deviceReset
  /-- PENDING_START (R50). -/
  | pendingStart
  /-- GLIDE_STAGE: the turn of the next gliding tap (R56). -/
  | glideStage
  /-- LINE_WRITE_STAGE: the turn of the next line (R57). -/
  | lineWriteStage
  /-- TAP_READ_STAGE: the turn of the next attached tap (R58). -/
  | tapReadStage
  /-- PUBLISH (R59). -/
  | publish
  /-- LINE_WRITE_GRANT (R4). -/
  | lineWriteGrant
  /-- LINE_WRITE_COMPLETION (R57). -/
  | lineWriteCompletion
  /-- TAP_READ_GRANT (R123). -/
  | tapReadGrant
  /-- TAP_READ_COMPLETION (R36). -/
  | tapReadCompletion
  /-- WRITE_BURST_GRANT (R109). -/
  | writeBurstGrant
  /-- WRITE_BURST_COMPLETION (R109). -/
  | writeBurstCompletion
  /-- READ_BURST_GRANT (R123). -/
  | readBurstGrant
  /-- READ_BURST_COMPLETION (R112). -/
  | readBurstCompletion
  /-- FILL_BURST_GRANT (R123). -/
  | fillBurstGrant
  /-- FILL_BURST_COMPLETION (R114). -/
  | fillBurstCompletion
  /-- REFRESH_GRANT (R123). -/
  | refreshGrant
  /-- REFRESH_COMPLETION (R126). -/
  | refreshCompletion
  /-- REFRESH_TIMER_EXPIRY (R125). -/
  | refreshTimerExpiry
  /-- STARVATION_TIMER_EXPIRY (R116). -/
  | starvationTimerExpiry
  /-- CANCELLED_HEAD_COMPLETION (R75). -/
  | cancelledHeadCompletion
  /-- LINE_DEFINE: its application at the head of the queue (R15). -/
  | lineDefine
  /-- LINE_RELEASE: its application (R17). -/
  | lineRelease
  /-- LINE_START: its application (R18). -/
  | lineStart
  /-- LINE_FREEZE: its application (R20). -/
  | lineFreeze
  /-- LINE_HALT: its application (R21). -/
  | lineHalt
  /-- TAP_ATTACH: its application (R26). -/
  | tapAttach
  /-- TAP_DETACH: its application (R27). -/
  | tapDetach
  /-- TAP_RETARGET: its application (R28). -/
  | tapRetarget
  /-- TAP_GAIN: its application (R29). -/
  | tapGain
  /-- MARK: the mark completion (R82). -/
  | mark
  /-- BLOCK_WRITE: its handover (R84). -/
  | blockWrite
  /-- BLOCK_READ: its handover (R84). -/
  | blockRead
  /-- BLOCK_FILL: its handover (R84). -/
  | blockFill
  /-- TRANSFER_COMPLETION (R117). -/
  | transferCompletion
  /-- SUBMIT: a write of any value at 17h (R69). -/
  | submit (v : Half)
  /-- CANCEL: a write at 18h (R95). -/
  | cancel (v : Half)
  /-- POP: a write of any value at 1Dh (R94). -/
  | pop (v : Half)
  /-- DATA_HI: a write at 1Fh, a push (R106). -/
  | dataHi (v : Half)
  /-- DATA_LO: a read at 1Eh, a pop (R107). -/
  | dataLo
  /-- LOW_HALF_WRITE: a write to the low half of a writable pair (R138). -/
  | lowHalfWrite (pair : WritePair) (v : Half)
  /-- LOW_HALF_READ: a read at the offset; at the low half of a latched pair it loads the latch (R137). -/
  | lowHalfRead (off : Offset)
  /-- INPUT_COMMIT: a write to the high half of an input slot (R140). -/
  | inputCommit (slot : Fin 16) (v : Half)
  /-- OUT_LATCH: a write of any value at 63h (R141). -/
  | outLatch (v : Half)
  /-- INSPECT_SEL: a write at 64h (R142). -/
  | inspectSel (v : Half)
  /-- OVERRUN_WRITE: a write of any value at 04h (R49). -/
  | overrunWrite (v : Half)
  /-- REFSTAT: a write of any value at 0Ch (R127). -/
  | refstat (v : Half)
  /-- STALEMASK: a write at 0Eh (R55). -/
  | stalemask (v : Half)
  /-- HOSTERR: a write at 07h (R147). -/
  | hosterr (v : Half)
  /-- EVENTS: a write at 08h (R155). -/
  | events (v : Half)
  /-- EVMASK: a write at 09h (R157). -/
  | evmask (v : Half)
  /-- MEMSIZE: the MEMSIZE field of a MEMCFG write (R130). -/
  | memsize (code : BitVec 2)
  /-- REFRESH_ENABLE: the refresh-enable field of a MEMCFG write (R128). -/
  | refreshEnable (on : Bool)
  /-- REFINT: a write at 0Bh (R129). -/
  | refint (v : Half)
  /-- TXTIMEOUT: a write at 0Dh (R132). -/
  | txtimeout (v : Half)
  /-- REGISTER_WRITE: a write of a whole location with no row of its own (R136). -/
  | registerWrite (off : Offset) (v : Half)
  /-- RST_RELEASE: RST# is released (R145). -/
  | rstRelease
  /-- DRAM_CONTENTS_LOST: the DRAM has gone unrefreshed too long (R128). -/
  | dramContentsLost
deriving DecidableEq, Repr

end Sys2Proof
end

