-- ==== Sys2Proof/Config.lean ====
section
/-! DEFINITION. The free values: what the spec leaves open has no body here, so nothing can be proved of its value. -/

namespace Sys2Proof

/-- What a cell holds that nothing has written since the DRAM contents were lost for the `epoch`-th time.
R134 leaves the contents after a device reset unspecified in every cell, and by R128 a cell left
unrefreshed may hold any 24-bit value. Log 7. -/
opaque Config.unwrittenCell (epoch cell : Nat) : Sample

/-- What the DRAM port gives at the `k`-th cell it returns, when that cell lies beyond the device
fitted: "whatever the DRAM port gives" (R131). Log 8. -/
opaque Config.beyondDevice (k cell : Nat) : Sample

end Sys2Proof
end

