-- ==== Sys2Proof/Machine/State.lean ====
section
/-! DEFINITION. The state of the 3240, block by block as spec/00 section 1.3 lists them, and its value after
a device reset. -/

namespace Sys2Proof.Machine

/-! ### The Line Table -/

/-- A line's source: input slot s, or bus b of the previous frame (R1). -/
inductive Source where
  | input (slot : Fin 16)
  | bus (b : Fin 16)
deriving DecidableEq, Repr

/-- The states of a defined line. The loop field is present exactly in FROZEN (R1). -/
inductive LineMode where
  | idle
  | running
  | frozen (loop : Nat)
deriving DecidableEq, Repr

/-- The record of a defined line (R1): cells and counts of cells. -/
structure LineRec where
  base : Nat
  length : Nat
  head : Nat
  fill : Nat
  source : Source
  mode : LineMode
deriving DecidableEq, Repr

/-! ### The Tap Table -/

/-- The record of an attached tap (R23); `gliding` is its state, GLIDING or STEADY. -/
structure TapRec where
  line : Fin 32
  current : Nat
  target : Nat
  step : Nat
  bus : Fin 16
  gain : BitVec 16
  gliding : Bool
deriving DecidableEq, Repr

/-! ### The Frame Engine -/

/-- The engine states (R43). -/
inductive EngineState where
  | stopped
  | waiting
  | servicing
  | stopping
deriving DecidableEq, Repr

/-- The tick sources (R44). -/
inductive TickSource where
  | fck
  | step
deriving DecidableEq, Repr

/-- Where a service in progress stands (R52): the stage, and the first tap or line number it has not yet
taken. `rest` is no service in progress. -/
inductive Stage where
  | rest
  | glides (next : Nat)
  | lineWrites (next : Nat)
  | tapReads (next : Nat)
deriving DecidableEq, Repr

/-- Sixteen bus values, their saturation flags and the frame number: the published bank (R59) and the
output view (R141). -/
structure Bank where
  values : Vector Sample 16
  sat : BitVec 16
  frame : FrameNo
deriving DecidableEq, Repr

/-- The Frame Engine (R43). -/
structure Engine where
  state : EngineState
  pendingTick : Bool
  tickSource : TickSource
  fseq : FrameNo
  overrun : BitVec 16
  snapshot : Vector Sample 16
  acc : Vector Int 16
  bank : Bank
  stale : BitVec 16
  stage : Stage
deriving DecidableEq, Repr

/-! ### The Request Unit -/

/-- The mode argument of LINE_START (R68). -/
inductive StartMode where
  | fresh
  | keep
deriving DecidableEq, Repr

/-- A request with the arguments its kind uses (R68). -/
inductive Request where
  | lineDefine (line : Fin 32) (base length : BitVec 32) (source : Source)
  | lineRelease (line : Fin 32)
  | lineStart (line : Fin 32) (mode : StartMode)
  | lineFreeze (line : Fin 32)
  | lineHalt (line : Fin 32)
  | tapAttach (tap : Fin 128) (line : Fin 32) (delay : BitVec 32) (bus : Fin 16) (gain : BitVec 16)
  | tapDetach (tap : Fin 128)
  | tapRetarget (tap : Fin 128) (target : BitVec 32) (step : Nat)
  | tapGain (tap : Fin 128) (gain : BitVec 16) (bus : Fin 16)
  | mark
  | blockWrite (address count : BitVec 32)
  | blockRead (address count : BitVec 32)
  | blockFill (address count : BitVec 32) (value : Sample)
deriving DecidableEq, Repr

/-- The thirteen request kinds (R68). -/
inductive Kind where
  | lineDefine
  | lineRelease
  | lineStart
  | lineFreeze
  | lineHalt
  | tapAttach
  | tapDetach
  | tapRetarget
  | tapGain
  | mark
  | blockWrite
  | blockRead
  | blockFill
deriving DecidableEq, Repr

/-- An entry of the request queue (R72). -/
structure Entry where
  request : Request
  tag : Tag
  cancelled : Bool
deriving DecidableEq, Repr

/-- The mark state kept for a MARK at the head (R79). -/
inductive MarkState where
  | unarmed
  | armed (frame : FrameNo)
  | dueOk (frame : FrameNo)
  | dueStopped
deriving DecidableEq, Repr

/-- The Request Unit: the staging area (R67), the queue (R72) and the mark state of its head (R79). -/
structure RequestUnit where
  kindTag : Half
  args : Vector Half 6
  queue : List Entry
  mark : Option MarkState
deriving DecidableEq, Repr

/-! ### The Completion Ring -/

/-- The ten statuses (R89). -/
inductive Status where
  | ok
  | wrongState
  | range
  | overlap
  | tapRange
  | hasTaps
  | regionBusy
  | cancelled
  | stalled
  | engineStopped
deriving DecidableEq, Repr

/-- The aux part of a record with its aux kind (R88). -/
inductive Aux where
  | none
  | frame (n : FrameNo)
  | cells (n : Nat)
deriving DecidableEq, Repr

/-- A completion record (R88). -/
structure Record where
  tag : Tag
  kind : Kind
  status : Status
  aux : Aux
deriving DecidableEq, Repr

/-! ### The Transfer Unit -/

/-- The kinds of transfer; a fill carries its value (R103). -/
inductive TransferKind where
  | write
  | read
  | fill (value : Sample)
deriving DecidableEq, Repr

/-- How a transfer ended (R103). -/
inductive Final where
  | ok
  | cancelled
  | stalled
deriving DecidableEq, Repr

/-- The active transfer (R103). `final` is present exactly in FINISHING. -/
structure Transfer where
  tag : Tag
  kind : TransferKind
  address : Nat
  count : Nat
  accepted : Nat
  written : Nat
  fetched : Nat
  delivered : Nat
  final : Option Final
deriving DecidableEq, Repr

/-- The Transfer Unit: the active transfer (none in IDLE), the FIFO (oldest cell first) and the starvation
timer, as the TCLK periods left or stopped (R103, R104, R115). -/
structure TransferUnit where
  active : Option Transfer
  fifo : List Sample
  timer : Option Nat
deriving DecidableEq, Repr

/-! ### The Memory Port -/

/-- What an engine claim asks for: a line write of a value at a cell, or a tap read of a cell (R122). -/
inductive Access where
  | lineWrite (line : Fin 32) (cell : Nat) (value : Sample)
  | tapRead (tap : Fin 128) (cell : Nat)
deriving DecidableEq, Repr

/-- An engine claim; `promoted` once a refresh has completed while it waited (R123). -/
structure EngineClaim where
  access : Access
  promoted : Bool
deriving DecidableEq, Repr

/-- A transfer claim: a burst with its first cell and size fixed (R122). -/
structure BurstClaim where
  kind : TransferKind
  address : Nat
  size : Nat
deriving DecidableEq, Repr

/-- The operations of the port with what they move (R121). -/
inductive DramOp where
  | lineWrite (line : Fin 32)
  | tapRead (tap : Fin 128) (cell : Nat)
  | writeBurst (address : Nat) (cells : List Sample)
  | readBurst (address size : Nat)
  | fillBurst (address size : Nat) (value : Sample)
  | refresh
deriving DecidableEq, Repr

/-- The operation in flight; `owned` until a soft reset takes it from its claimant (R134). -/
structure PortOp where
  op : DramOp
  owned : Bool
deriving DecidableEq, Repr

/-- The Memory Port: configuration, refresh, operation in flight and standing claims (R121 to R134). The
refresh timer holds the TCLK periods left, or is stopped. -/
structure MemoryPort where
  memsize : BitVec 2
  refreshOn : Bool
  refreshTimer : Option Nat
  debt : Nat
  late : BitVec 8
  refint : BitVec 8
  txtimeout : BitVec 16
  op : Option PortOp
  engineClaim : Option EngineClaim
  txClaim : Option BurstClaim
deriving DecidableEq, Repr

/-! ### The DRAM -/

/-- The DRAM at the port. `cells` lists the cells written since the contents were last lost, addresses
strictly rising; `epoch` counts those losses; `fitted` is how many cells the device holds (R131); `reads`
counts the cells the port has returned. Log 7, 8. -/
structure Dram where
  cells : List (Nat × Sample)
  epoch : Nat
  fitted : Nat
  reads : Nat
deriving DecidableEq, Repr

/-! ### The Host Port and the Event Unit -/

/-- The Host Port (R137 to R142, R146). `dataOut` is the halfword the last read returned (log 6). -/
structure HostPort where
  readLatch : Half
  writeLatch : Half
  slots : Vector Sample 16
  fresh : BitVec 16
  view : Bank
  sel : Half
  inspect : Vector Half 8
  errors : BitVec 9
  dataOut : Half
deriving DecidableEq, Repr

/-- The Event Unit: flags and mask (R153, R157). -/
structure EventUnit where
  flags : BitVec 9
  mask : BitVec 9
deriving DecidableEq, Repr

/-! ### The machine -/

/-- The whole state: the queue of waiting commands, RST#, and the blocks of the 3240. -/
structure State where
  pending : List Instr
  held : Bool
  lines : Vector (Option LineRec) 32
  taps : Vector (Option TapRec) 128
  glideCount : Nat
  eng : Engine
  req : RequestUnit
  ring : List Record
  tx : TransferUnit
  port : MemoryPort
  dram : Dram
  host : HostPort
  ev : EventUnit
deriving DecidableEq, Repr

/-- Why the machine stops with a fault: never. The spec gives the block no fault; misuse is reported in
HOSTERR, in completion records and in events (R146, R89, R153). Safe: nothing stops. -/
inductive Fault where
deriving DecidableEq, Repr

/-- Why a command has no meaning. -/
inductive Refusal where
  /-- Raised by `exec` for a command without a meaning; no arm of this model does. Safe: the machine stops. -/
  | notModelled (mnemonic : String)
deriving DecidableEq, Repr

/-! ### Reset values -/

/-- The bank before any publish (R60): zeros, clear flags, frame number 0. -/
def Bank.zero : Bank := ⟨Vector.replicate 16 0, 0, 0⟩

/-- The engine after a device reset (R66). -/
def Engine.reset : Engine where
  state := .stopped
  pendingTick := false
  tickSource := .fck
  fseq := 0
  overrun := 0
  snapshot := Vector.replicate 16 0
  acc := Vector.replicate 16 0
  bank := Bank.zero
  stale := 0
  stage := .rest

/-- The Request Unit after either reset (R87). -/
def RequestUnit.reset : RequestUnit := ⟨0, Vector.replicate 6 0, [], none⟩

/-- The Transfer Unit after either reset (R120). -/
def TransferUnit.reset : TransferUnit := ⟨none, [], none⟩

/-- The Memory Port after a device reset (R134). -/
def MemoryPort.reset : MemoryPort where
  memsize := 0
  refreshOn := false
  refreshTimer := none
  debt := 0
  late := 0
  refint := 1
  txtimeout := 0
  op := none
  engineClaim := none
  txClaim := none

/-- The Host Port after a device reset (R152); `dataOut` is log 6's choice. -/
def HostPort.reset : HostPort where
  readLatch := 0
  writeLatch := 0
  slots := Vector.replicate 16 0
  fresh := 0
  view := Bank.zero
  sel := 0
  inspect := Vector.replicate 8 0
  errors := 0
  dataOut := 0

/-- The Event Unit after either reset (R159). -/
def EventUnit.reset : EventUnit := ⟨0, 0⟩

/-- The DRAM right after reset: nothing listed (R134); epoch, device and counter by log 7 and log 8. -/
def Dram.reset : Dram := ⟨[], 0, 8388608, 0⟩

/-- The machine right after a device reset, RST# released: every block at the device reset values of R3, R24,
R66, R87, R102, R120, R134, R152 and R159. -/
def State.reset : State where
  pending := []
  held := false
  lines := Vector.replicate 32 none
  taps := Vector.replicate 128 none
  glideCount := 0
  eng := Engine.reset
  req := RequestUnit.reset
  ring := []
  tx := TransferUnit.reset
  port := MemoryPort.reset
  dram := Dram.reset
  host := HostPort.reset
  ev := EventUnit.reset

end Sys2Proof.Machine
end

