-- ==== Sys2Proof/Machine/Flags.lean ====
section
/-! DEFINITION. Event flags, host error flags, the interrupt line, and the status and state codes of the
window layout. -/

namespace Sys2Proof.Machine

/-- The sixteen flags `p 0` to `p 15`, flag i in bit i. -/
def flags16 (p : Fin 16 → Bool) : BitVec 16 :=
  (List.finRange 16).foldl (fun m i => if p i then m ||| BitVec.twoPow 16 i.val else m) 0

/-- The nine events (R153). -/
inductive Event where
  | frameDone
  | overrun
  | inputStale
  | saturation
  | glidesSettled
  | completion
  | dataRequest
  | refreshLate
  | hostError
deriving DecidableEq, Repr

/-- The bit of an event at EVENTS and EVMASK (R153). -/
def eventBit : Event → Nat
  | .frameDone => 0
  | .overrun => 1
  | .inputStale => 2
  | .saturation => 3
  | .glidesSettled => 4
  | .completion => 5
  | .dataRequest => 6
  | .refreshLate => 7
  | .hostError => 8

/-- Raising an event sets its flag; a set flag stays set, and the mask is not touched (R153). -/
def raiseFlag (e : Event) (ev : EventUnit) : EventUnit :=
  { ev with flags := ev.flags ||| BitVec.twoPow 9 (eventBit e) }

/-- Raising an event when its cause is there. -/
def raiseFlagIf (b : Bool) (e : Event) (ev : EventUnit) : EventUnit :=
  if b then raiseFlag e ev else ev

/-- Raising an event in the machine. -/
def raise (e : Event) (s : State) : State := { s with ev := raiseFlag e s.ev }

/-- IRQ is asserted while a set flag has its mask bit set (R158). -/
def irq (s : State) : Bool := s.ev.flags &&& s.ev.mask != 0

/-- The nine host errors (R146). -/
inductive HostError where
  | qfull
  | badKind
  | badField
  | cancelMiss
  | ringEmpty
  | dataUnexpected
  | dataOverrun
  | dataUnderrun
  | configBusy
deriving DecidableEq, Repr

/-- The bit of a host error at HOSTERR (R146). -/
def hostErrorBit : HostError → Nat
  | .qfull => 0
  | .badKind => 1
  | .badField => 2
  | .cancelMiss => 3
  | .ringEmpty => 4
  | .dataUnexpected => 5
  | .dataOverrun => 6
  | .dataUnderrun => 7
  | .configBusy => 8

/-- A cause of a host error sets its flag, and raises HOST_ERROR if the flag was clear (R146). -/
def hostError (e : HostError) (s : State) : State :=
  { s with
    host := { s.host with errors := s.host.errors ||| BitVec.twoPow 9 (hostErrorBit e) }
    ev := raiseFlagIf (!s.host.errors.getLsbD (hostErrorBit e)) .hostError s.ev }

/-- Counting up to the largest value of the counter, and no further (R49, R127). -/
def satSucc {n : Nat} (c : BitVec n) : BitVec n :=
  if c = BitVec.allOnes n then c else c + 1

/-- The status codes (R89). -/
def statusCode : Status → Nat
  | .ok => 0
  | .wrongState => 1
  | .range => 2
  | .overlap => 3
  | .tapRange => 4
  | .hasTaps => 5
  | .regionBusy => 6
  | .cancelled => 7
  | .stalled => 8
  | .engineStopped => 9

/-- The kind codes (R68). -/
def kindCode : Kind → Nat
  | .lineDefine => 1
  | .lineRelease => 2
  | .lineStart => 3
  | .lineFreeze => 4
  | .lineHalt => 5
  | .tapAttach => 6
  | .tapDetach => 7
  | .tapRetarget => 8
  | .tapGain => 9
  | .mark => 10
  | .blockWrite => 11
  | .blockRead => 12
  | .blockFill => 13

/-- The aux kind codes (R89). -/
def auxCode : Aux → Nat
  | .none => 0
  | .frame _ => 1
  | .cells _ => 2

/-- The aux part as a 32-bit number: the frame, the count of cells, or 0 (R88). -/
def auxValue : Aux → BitVec 32
  | .none => 0
  | .frame n => n
  | .cells n => BitVec.ofNat 32 n

/-- The engine state codes (R149). -/
def engineCode : EngineState → Nat
  | .stopped => 0
  | .waiting => 1
  | .servicing => 2
  | .stopping => 3

/-- The Transfer Unit's state code: 0 IDLE, 1 WRITING, 2 READING, 3 FILLING, 4 FINISHING (R149). -/
def transferCode : Option Transfer → Nat
  | none => 0
  | some t => if t.final.isSome then 4 else match t.kind with
    | .write => 1
    | .read => 2
    | .fill _ => 3

/-- The tick source code (R143). -/
def tickSourceCode : TickSource → Nat
  | .fck => 1
  | .step => 2

end Sys2Proof.Machine
end

