-- ==== Sys2Proof/Machine/Ops.lean ====
section
/-! DEFINITION. The named operations over the DRAM, the tables, the queue, the ring, the arbiter and the
Transfer Unit's claim and timer, on which the meanings of the commands rest. -/

namespace Sys2Proof.Machine

/-! ### RST# -/

/-- While RST# is asserted every block holds its device reset state: accesses are ignored and no event of a
block takes place (R145). -/
def whenReleased (s : State) (f : State → State) : State := if s.held then s else f s

/-! ### The DRAM -/

/-- The value listed for a cell. -/
def findCell : List (Nat × Sample) → Nat → Option Sample
  | [], _ => none
  | (b, v) :: rest, a => if a = b then some v else findCell rest a

/-- The list with the cell `a` holding `v`; it keeps addresses strictly rising. -/
def putCell : List (Nat × Sample) → Nat → Sample → List (Nat × Sample)
  | [], a, v => [(a, v)]
  | (b, w) :: rest, a, v =>
    if a < b then (a, v) :: (b, w) :: rest
    else if a = b then (a, v) :: rest
    else (b, w) :: putCell rest a v

/-- The canonical form of the listed cells: addresses strictly rising. An unlisted cell holds no value the
model knows, so no listed entry can equal one (log 7). -/
def cellsWf : List (Nat × Sample) → Bool
  | [] => true
  | [_] => true
  | (a, _) :: (b, w) :: rest => decide (a < b) && cellsWf ((b, w) :: rest)

/-- The canonical form of the DRAM. -/
def Dram.wf (d : Dram) : Bool := cellsWf d.cells

/-- What the port returns for cell `a` as the `k`-th cell it returns: the value last written (R131), a free
value for a cell not written since the contents were lost (R134), or a free value beyond the device (R131). -/
def Dram.valueAt (d : Dram) (k a : Nat) : Sample :=
  if a < d.fitted then (findCell d.cells a).getD (Config.unwrittenCell d.epoch a)
  else Config.beyondDevice k a

/-- The cell's value as the next cell the port returns. -/
def Dram.read (d : Dram) (a : Nat) : Sample := d.valueAt d.reads a

/-- The values of `n` consecutive cells from `a` upward. -/
def Dram.readMany (d : Dram) (a n : Nat) : List Sample :=
  (List.range n).map fun i => d.valueAt (d.reads + i) (a + i)

/-- The DRAM after the port has returned `n` cells. -/
def Dram.counted (d : Dram) (n : Nat) : Dram := { d with reads := d.reads + n }

/-- A write of one cell. A cell the device cannot hold keeps nothing (R131, log 8). -/
def Dram.write (d : Dram) (a : Nat) (v : Sample) : Dram :=
  if a < d.fitted then { d with cells := putCell d.cells a v } else d

/-- Writes of consecutive cells from `a` upward. -/
def Dram.writeMany : Dram → Nat → List Sample → Dram
  | d, _, [] => d
  | d, a, v :: vs => Dram.writeMany (d.write a v) (a + 1) vs

/-- The DRAM with its contents lost: every cell holds a new free value (R128, R134). -/
def Dram.lost (d : Dram) : Dram := { d with cells := [], epoch := d.epoch + 1 }

/-! ### Lines and taps -/

/-- The memory size in cells that the MEMSIZE code sets (R130). -/
def memoryCells (code : BitVec 2) : Nat := 1048576 * 2 ^ code.toNat

/-- Two ranges of cells overlap when they have a cell in common (R12). -/
def rangesOverlap (b1 n1 b2 n2 : Nat) : Bool := decide (b1 < b2 + n2) && decide (b2 < b1 + n1)

/-- Some defined line with number `l` satisfies `p l`. -/
def someLine (s : State) (p : Fin 32 → LineRec → Bool) : Bool :=
  (List.finRange 32).any fun l => (s.lines[l]).any (p l)

/-- Some attached tap satisfies `p`. -/
def someTap (s : State) (p : TapRec → Bool) : Bool :=
  (List.finRange 128).any fun t => (s.taps[t]).any p

/-- A line's tap count: the attached taps whose line field holds it (R2). -/
def tapCount (s : State) (l : Fin 32) : Nat :=
  (List.finRange 128).countP fun t => (s.taps[t]).any fun r => decide (r.line = l)

/-- The number of taps in the GLIDING state, which the glide count holds (R31). -/
def glidingTaps (s : State) : Nat :=
  (List.finRange 128).countP fun t => (s.taps[t]).any TapRec.gliding

/-- The machine with line `l`'s record replaced. -/
def setLine (l : Fin 32) (r : Option LineRec) (s : State) : State := { s with lines := s.lines.set l r }

/-- The machine with tap `t`'s record replaced. -/
def setTap (t : Fin 128) (r : Option TapRec) (s : State) : State := { s with taps := s.taps.set t r }

/-- Falling of the glide count by one; GLIDES_SETTLED when it falls to 0 (R31, R32). -/
def glideCountFalls (s : State) : State :=
  { s with
    glideCount := s.glideCount - 1
    ev := raiseFlagIf (decide (s.glideCount = 1)) .glidesSettled s.ev }

/-- Rising of the glide count by one (R31). -/
def glideCountRises (s : State) : State := { s with glideCount := s.glideCount + 1 }

/-- The cell that holds age `age` behind the line's head (R6); "modulo" is never negative. -/
def LineRec.cellAt (r : LineRec) (age : Nat) : Nat :=
  r.base + (((r.head : Int) - 1 - age) % (r.length : Int)).toNat

/-- The effective age of a tap at delay `d` (R6, R8); none on an IDLE line (R7). -/
def LineRec.effectiveAge (r : LineRec) (d : Nat) : Option Nat :=
  match r.mode with
  | .idle => none
  | .running => some d
  | .frozen loop => some (((d : Int) - loop) % (r.length : Int)).toNat

/-- The cell a tap at delay `d` reads, when its line gives it a sample: the age is below fill (R6 to R8). -/
def LineRec.tapCell (r : LineRec) (d : Nat) : Option Nat :=
  match r.effectiveAge d with
  | none => none
  | some age => if age < r.fill then some (r.cellAt age) else none

/-! ### The request queue and the ring -/

/-- The first mark state of a MARK that becomes the head, by the engine state at that moment; no other head
has one (R79). -/
def markOfHead (e : EngineState) : List Entry → Option MarkState
  | [] => none
  | h :: _ =>
    if h.request = .mark then some (if e = .stopped then .dueStopped else .unarmed) else none

/-- An UNARMED MARK becomes ARMED at a begin that sets FSEQ to `n` (R80). -/
def armMark (n : FrameNo) : Option MarkState → Option MarkState
  | some .unarmed => some (.armed n)
  | m => m

/-- A MARK ARMED on frame `n` becomes DUE with OK at frame `n`'s publish (R80). -/
def publishMark (n : FrameNo) : Option MarkState → Option MarkState
  | some (.armed k) => some (if k = n then .dueOk n else .armed k)
  | m => m

/-- An UNARMED MARK becomes DUE with ENGINE_STOPPED when the engine reaches STOPPED (R81). -/
def stopMark : Option MarkState → Option MarkState
  | some .unarmed => some .dueStopped
  | m => m

/-- Removing the head entry; the next entry, if any, becomes the head (R73, R79). -/
def removeHead (s : State) : State :=
  { s with
    req := { s.req with queue := s.req.queue.tail, mark := markOfHead s.eng.state s.req.queue.tail } }

/-- A record enters the ring at the tail and COMPLETION is raised (R90). -/
def pushRecord (r : Record) (s : State) : State :=
  { s with ring := s.ring ++ [r], ev := raiseFlag .completion s.ev }

/-- The event that takes a head removes the entry and writes its record in one step (R73). -/
def completeHead (r : Record) (s : State) : State := pushRecord r (removeHead s)

/-- A ring slot is free (R91). -/
def ringFree (s : State) : Bool := decide (s.ring.length < 16)

/-- The head entry's request and tag when its cancelled mark is clear (R73, R75). -/
def openHead (s : State) : Option (Request × Tag) :=
  match s.req.queue with
  | [] => none
  | h :: _ => if h.cancelled then none else some (h.request, h.tag)

/-- The application event of a table request is enabled while the engine is STOPPED or WAITING and a ring
slot is free (R76). -/
def applicationEnabled (s : State) : Bool :=
  (decide (s.eng.state = .stopped) || decide (s.eng.state = .waiting)) && ringFree s

/-- The end of an application: OK with the effective frame FSEQ + 1 and the change made, or the status of
the first check that failed and nothing changed (R74, R77). -/
def finishApplication (kind : Kind) (tag : Tag) (result : Except Status State) (s : State) : State :=
  match result with
  | .ok s' => completeHead ⟨tag, kind, .ok, .frame (s.eng.fseq + 1)⟩ s'
  | .error status => completeHead ⟨tag, kind, status, .none⟩ s

/-! ### The arbiter -/

/-- The claimants of the port (R121). -/
inductive Claimant where
  | engine
  | refresh
  | transfer
deriving DecidableEq, Repr

/-- Refresh stands as a claimant while it is enabled and the debt is 1 or more (R122). -/
def refreshStands (p : MemoryPort) : Bool := p.refreshOn && decide (1 ≤ p.debt)

/-- A standing refresh claim is urgent while the debt is 6 or more (R122). -/
def refreshUrgent (p : MemoryPort) : Bool := refreshStands p && decide (6 ≤ p.debt)

/-- The best standing claim, in the rank of R123. -/
def bestClaim (p : MemoryPort) : Option Claimant :=
  if p.engineClaim.any EngineClaim.promoted then some .engine
  else if refreshUrgent p then some .refresh
  else if p.engineClaim.isSome then some .engine
  else if refreshStands p then some .refresh
  else if p.txClaim.isSome then some .transfer
  else none

/-- The claimant the arbiter grants: the best claim, when the port is free (R123). -/
def arbiter (p : MemoryPort) : Option Claimant := if p.op.isNone then bestClaim p else none

/-- An engine operation, a line write or a tap read, is in flight, owned or not. -/
def engineOpInFlight (p : MemoryPort) : Bool :=
  match p.op with
  | some ⟨.lineWrite _, _⟩ => true
  | some ⟨.tapRead _ _, _⟩ => true
  | _ => false

/-- The engine waits on an access of its own: a standing claim, or its operation in flight (R52). -/
def engineWaits (p : MemoryPort) : Bool :=
  p.engineClaim.isSome || (engineOpInFlight p && p.op.any PortOp.owned)

/-- A burst is in flight, owned or not. -/
def burstInFlight (p : MemoryPort) : Bool :=
  match p.op with
  | some ⟨.writeBurst _ _, _⟩ => true
  | some ⟨.readBurst _ _, _⟩ => true
  | some ⟨.fillBurst _ _ _, _⟩ => true
  | _ => false

/-- A burst of the active transfer is in flight (R117). -/
def ownBurstInFlight (p : MemoryPort) : Bool := burstInFlight p && p.op.any PortOp.owned

/-! ### The Transfer Unit -/

/-- WRITING (R103). -/
def isWriting (tx : TransferUnit) : Bool :=
  tx.active.any fun t => t.final.isNone && decide (t.kind = .write)

/-- READING (R103). -/
def isReading (tx : TransferUnit) : Bool :=
  tx.active.any fun t => t.final.isNone && decide (t.kind = .read)

/-- The burst whose claim condition holds, with its first cell and its size (R108, R111, R114). -/
def nextBurst (tx : TransferUnit) : Option BurstClaim :=
  match tx.active with
  | none => none
  | some t =>
    if t.final.isSome then none
    else match t.kind with
      | .write =>
        if t.written < t.count ∧ (16 ≤ tx.fifo.length ∨ (t.accepted = t.count ∧ 1 ≤ tx.fifo.length)) then
          some ⟨.write, t.address + t.written, min 16 tx.fifo.length⟩
        else none
      | .read =>
        if t.fetched < t.count ∧ min 16 (t.count - t.fetched) ≤ 64 - tx.fifo.length then
          some ⟨.read, t.address + t.fetched, min 16 (t.count - t.fetched)⟩
        else none
      | .fill v =>
        if t.written < t.count then
          some ⟨.fill v, t.address + t.written, min 16 (t.count - t.written)⟩
        else none

/-- The port after the claim condition has been examined: with no burst claimed or in flight, the next burst
is claimed if its condition holds (R108, R111, R114). A burst disowned by a soft reset still counts as in
flight (log 10). -/
def examineClaim (tx : TransferUnit) (p : MemoryPort) : MemoryPort :=
  { p with txClaim := if p.txClaim.isNone && !burstInFlight p then nextBurst tx else p.txClaim }

/-- The conditions under which the starvation timer runs (R115). -/
def timerRuns (tx : TransferUnit) (p : MemoryPort) : Bool :=
  (isWriting tx || isReading tx) && p.txClaim.isNone && !burstInFlight p && decide (p.txtimeout ≠ 0)

/-- The full period of the starvation timer in periods of TCLK (R115). -/
def timerPeriod (p : MemoryPort) : Nat := p.txtimeout.toNat * 64

/-- The timer after an event that does not restart it: it goes on, starts with the full period, or is
stopped (R115). -/
def timerKept (tx : TransferUnit) (p : MemoryPort) : Option Nat :=
  if timerRuns tx p then some (tx.timer.getD (timerPeriod p)) else none

/-- The timer after an accepted push, a pop with a cell to take, or a TXTIMEOUT write (R115). -/
def timerRestarted (tx : TransferUnit) (p : MemoryPort) : Option Nat :=
  if timerRuns tx p then some (timerPeriod p) else none

/-- The end of a step that may make a claim condition true: the claim is examined and the timer follows. -/
def settleTransfer (s : State) : State :=
  { s with
    port := examineClaim s.tx s.port
    tx := { s.tx with timer := timerKept s.tx (examineClaim s.tx s.port) } }

/-- The same, after an event that restarts the timer (R106, R107). -/
def settleRestarted (s : State) : State :=
  { s with
    port := examineClaim s.tx s.port
    tx := { s.tx with timer := timerRestarted s.tx (examineClaim s.tx s.port) } }

/-- Ending the active transfer before its time: final status, FINISHING, claim withdrawn, FIFO flushed, timer
stopped (R96, R116). -/
def cutTransfer (f : Final) (t : Transfer) (s : State) : State :=
  { s with
    tx := { active := some { t with final := some f }, fifo := [], timer := none }
    port := { s.port with txClaim := none } }

/-- The cells done of a transfer: written for a write or fill, delivered for a read (R97, R117). -/
def cellsDone (t : Transfer) : Nat :=
  match t.kind with
  | .write => t.written
  | .read => t.delivered
  | .fill _ => t.written

/-- The request kind of a transfer (R88). -/
def transferRequestKind : TransferKind → Kind
  | .write => .blockWrite
  | .read => .blockRead
  | .fill _ => .blockFill

/-- The status a transfer's record carries for its final status (R117). -/
def finalStatus : Final → Status
  | .ok => .ok
  | .cancelled => .cancelled
  | .stalled => .stalled

end Sys2Proof.Machine
end

