-- ==== Sys2Proof/Machine/Engine.lean ====
section
/-! DEFINITION. The Frame Engine: ticks, go and stop, the stages of a service, and the publish (spec/03). -/

namespace Sys2Proof.Machine

/-! ### The begin of a service -/

/-- The line is RUNNING with source INPUT `i` (R54). -/
def LineRec.runsOnInput (r : LineRec) (i : Fin 16) : Bool :=
  decide (r.mode = .running) && decide (r.source = .input i)

/-- The slots stale at a begin: a RUNNING line takes the slot and its fresh flag is clear (R54). -/
def staleSlots (s : State) : BitVec 16 :=
  flags16 fun i => someLine s (fun _ r => r.runsOnInput i) && !s.host.fresh.getLsbD i.val

/-- The begin event, in one step: FSEQ, engine state, snapshot, stale check, fresh flags, and the arming of an
UNARMED MARK (R53, R54, R80). -/
def beginService (s : State) : State :=
  { s with
    eng := { s.eng with
      state := .servicing
      fseq := s.eng.fseq + 1
      snapshot := s.host.slots
      stale := s.eng.stale ||| staleSlots s
      stage := .glides 0 }
    req := { s.req with mark := armMark (s.eng.fseq + 1) s.req.mark }
    host := { s.host with fresh := 0 }
    ev := raiseFlagIf (decide (staleSlots s ≠ 0)) .inputStale s.ev }

/-- A lost tick: the overrun counter rises, saturating, and OVERRUN is raised (R49). -/
def loseTick (s : State) : State :=
  { s with eng := { s.eng with overrun := satSucc s.eng.overrun }, ev := raiseFlag .overrun s.ev }

/-- A tick arrival by engine state and pending tick (R48). -/
def tickArrives (s : State) : State :=
  match s.eng.state, s.eng.pendingTick with
  | .stopped, _ => s
  | .waiting, false => beginService s
  | .waiting, true => loseTick s
  | .servicing, false => { s with eng := { s.eng with pendingTick := true } }
  | .servicing, true => loseTick s
  | .stopping, _ => s

/-- TICK_ARRIVAL: an edge at FCK is a tick when the source is FCK, and is ignored otherwise (R44). -/
def execTickArrival (s : State) : Host.Outcome State Fault Refusal :=
  .next (whenReleased s fun s => if s.eng.tickSource = .fck then tickArrives s else s)

/-- A STEP request is a tick when the source is STEP, and is ignored otherwise (R44). -/
def stepRequest (s : State) : State := if s.eng.tickSource = .step then tickArrives s else s

/-- STEP (R44). -/
def execStep (s : State) : Host.Outcome State Fault Refusal := .next (whenReleased s stepRequest)

/-- ENGINE_GO is taken in STOPPED and has no effect elsewhere (R45). -/
def goRequest (s : State) : State :=
  if s.eng.state = .stopped then
    { s with eng := { s.eng with state := .waiting, pendingTick := false } }
  else s

/-- ENGINE_GO (R45). -/
def execEngineGo (s : State) : Host.Outcome State Fault Refusal := .next (whenReleased s goRequest)

/-- ENGINE_STOP by engine state; reaching STOPPED makes an UNARMED MARK due (R46, R81). -/
def stopRequest (s : State) : State :=
  match s.eng.state with
  | .waiting =>
    { s with
      eng := { s.eng with state := .stopped, pendingTick := false }
      req := { s.req with mark := stopMark s.req.mark } }
  | .servicing => { s with eng := { s.eng with state := .stopping } }
  | .stopped => s
  | .stopping => s

/-- ENGINE_STOP (R46). -/
def execEngineStop (s : State) : Host.Outcome State Fault Refusal := .next (whenReleased s stopRequest)

/-- The source a tick-source field names; 0 and 3 name none (R143). -/
def namedSource (field : BitVec 2) : Option TickSource :=
  if field = 1 then some .fck else if field = 2 then some .step else none

/-- The tick-source field: no change when it names none or the source in force, a change in STOPPED, and
CONFIG_BUSY elsewhere (R44, R143). -/
def sourceRequest (field : BitVec 2) (s : State) : State :=
  match namedSource field with
  | none => s
  | some src =>
    if s.eng.tickSource = src then s
    else if s.eng.state = .stopped then { s with eng := { s.eng with tickSource := src } }
    else hostError .configBusy s

/-- TICK_SOURCE (R44). -/
def execTickSource (field : BitVec 2) (s : State) : Host.Outcome State Fault Refusal :=
  .next (whenReleased s (sourceRequest field))

/-- PENDING_START: in WAITING with the pending tick 1, the tick is cleared and a service begins (R50). -/
def execPendingStart (s : State) : Host.Outcome State Fault Refusal :=
  .next (whenReleased s fun s =>
    if s.eng.state = .waiting ∧ s.eng.pendingTick = true then
      beginService { s with eng := { s.eng with pendingTick := false } }
    else s)

/-! ### The item whose turn it is -/

/-- The items of a service that take a step (R52). -/
inductive Item where
  | glide (t : Fin 128) (r : TapRec)
  | line (l : Fin 32) (r : LineRec)
  | tap (t : Fin 128) (r : TapRec)
  | publish
deriving DecidableEq, Repr

/-- The first attached tap from number `n` on that satisfies `p`. -/
def nextTap (s : State) (n : Nat) (p : TapRec → Bool) : Option (Fin 128 × TapRec) :=
  (List.finRange 128).findSome? fun t =>
    if n ≤ t.val then (s.taps[t]).bind fun r => if p r then some (t, r) else none else none

/-- The first line from number `n` on that the line-write stage does not pass over: RUNNING or FROZEN (R57). -/
def nextLine (s : State) (n : Nat) : Option (Fin 32 × LineRec) :=
  (List.finRange 32).findSome? fun l =>
    if n ≤ l.val then (s.lines[l]).bind fun r => if r.mode = .idle then none else some (l, r) else none

/-- From tap `n` of the tap-read stage on: the next attached tap, or the publish (R58). -/
def itemFromTap (s : State) (n : Nat) : Item :=
  match nextTap s n (fun _ => true) with
  | some (t, r) => .tap t r
  | none => .publish

/-- From line `n` of the line-write stage on (R57). -/
def itemFromLine (s : State) (n : Nat) : Item :=
  match nextLine s n with
  | some (l, r) => .line l r
  | none => itemFromTap s 0

/-- From tap `n` of the glide stage on: STEADY taps are passed over (R56). -/
def itemFromGlide (s : State) (n : Nat) : Item :=
  match nextTap s n TapRec.gliding with
  | some (t, r) => .glide t r
  | none => itemFromLine s 0

/-- A service is in progress (R43). -/
def inService (s : State) : Bool :=
  decide (s.eng.state = .servicing) || decide (s.eng.state = .stopping)

/-- The item whose turn it is in the service in progress. Items that are passed over take no step of their
own (R52, log 12). -/
def currentItem (s : State) : Option Item :=
  if inService s then
    match s.eng.stage with
    | .rest => none
    | .glides n => some (itemFromGlide s n)
    | .lineWrites n => some (itemFromLine s n)
    | .tapReads n => some (itemFromTap s n)
  else none

/-- The machine with the service at another place. -/
def atStage (st : Stage) (s : State) : State := { s with eng := { s.eng with stage := st } }

/-! ### The stages -/

/-- One glide move: to the target at once when step is 0, otherwise toward it by the step or the distance,
whichever is smaller; STEADY on arrival (R33). -/
def TapRec.glided (r : TapRec) : TapRec :=
  let c :=
    if r.step = 0 then r.target
    else if r.current ≤ r.target then r.current + min r.step (r.target - r.current)
    else r.current - min r.step (r.current - r.target)
  { r with current := c, gliding := decide (c ≠ r.target) }

/-- The turn of gliding tap `t` (R33, R56). -/
def glideTurn (t : Fin 128) (r : TapRec) (s : State) : State :=
  let s := atStage (.glides (t.val + 1)) (setTap t (some r.glided) s)
  if r.glided.gliding then s else glideCountFalls s

/-- GLIDE_STAGE (R56). -/
def execGlideStage (s : State) : Host.Outcome State Fault Refusal :=
  .next (whenReleased s fun s =>
    match currentItem s with
    | some (.glide t r) => glideTurn t r s
    | _ => s)

/-- The value a line writes: the slot's in the snapshot (R9), or the bus's in the published bank (R10). -/
def sourceValue (s : State) : Source → Sample
  | .input i => s.eng.snapshot[i]
  | .bus b => s.eng.bank.values[b]

/-- The turn of line `l`: a RUNNING line's write is claimed at base + head, a FROZEN line's loop advances
(R4, R5, R57). A claim waits for any operation of the engine still in flight (R122, log 10). -/
def lineTurn (l : Fin 32) (r : LineRec) (s : State) : State :=
  match r.mode with
  | .running =>
    if engineOpInFlight s.port then s
    else
      { s with port := { s.port with
          engineClaim := some ⟨.lineWrite l (r.base + r.head) (sourceValue s r.source), false⟩ } }
  | .frozen loop =>
    atStage (.lineWrites (l.val + 1)) (setLine l (some { r with mode := .frozen ((loop + 1) % r.length) }) s)
  | .idle => s

/-- LINE_WRITE_STAGE: the engine must not be waiting on an access (R52, R57). -/
def execLineWriteStage (s : State) : Host.Outcome State Fault Refusal :=
  .next (whenReleased s fun s =>
    if engineWaits s.port then s
    else match currentItem s with
      | some (.line l r) => lineTurn l r s
      | _ => s)

/-- The cell tap `r` reads, when its line gives it a sample (R58). -/
def tapSampleCell (s : State) (r : TapRec) : Option Nat :=
  (s.lines[r.line]).bind fun lr => lr.tapCell r.current

/-- The turn of attached tap `t`: a read is claimed at its cell, or, with no sample, the engine goes on
(R7, R36, R58). -/
def tapTurn (t : Fin 128) (r : TapRec) (s : State) : State :=
  match tapSampleCell s r with
  | some cell =>
    if engineOpInFlight s.port then s
    else { s with port := { s.port with engineClaim := some ⟨.tapRead t cell, false⟩ } }
  | none => atStage (.tapReads (t.val + 1)) s

/-- TAP_READ_STAGE (R58). -/
def execTapReadStage (s : State) : Host.Outcome State Fault Refusal :=
  .next (whenReleased s fun s =>
    if engineWaits s.port then s
    else match currentItem s with
      | some (.tap t r) => tapTurn t r s
      | _ => s)

/-! ### The publish -/

/-- An accumulator shifted right by 14 places, rounded toward minus infinity (R38). -/
def scaledBack (a : Int) : Int := a / 16384

/-- Limiting to the cell range (R38). -/
def limitToCell (x : Int) : Sample := BitVec.ofInt 24 (max (-8388608) (min 8388607 x))

/-- The bus saturates when its result is limited (R38). -/
def saturates (x : Int) : Bool := decide (x < -8388608) || decide (8388607 < x)

/-- The bank a publish makes: sixteen bus values, their saturation flags, and the service's FSEQ (R38, R59). -/
def publishedBank (e : Engine) : Bank where
  values := Vector.ofFn fun b => limitToCell (scaledBack e.acc[b])
  sat := flags16 fun b => saturates (scaledBack e.acc[b])
  frame := e.fseq

/-- The events of a publish: FRAME_DONE, and SATURATION when a bus saturated (R59). -/
def publishEvents (b : Bank) (ev : EventUnit) : EventUnit :=
  raiseFlagIf (decide (b.sat ≠ 0)) .saturation (raiseFlag .frameDone ev)

/-- The publish: bank, events, accumulators, MARK, and the engine's leaving of SERVICING or STOPPING (R50,
R59, R80, R81). -/
def publishService (s : State) : State :=
  { s with
    eng := { s.eng with
      state := if s.eng.state = .stopping then .stopped else .waiting
      pendingTick := if s.eng.state = .stopping then false else s.eng.pendingTick
      acc := Vector.replicate 16 0
      bank := publishedBank s.eng
      stage := .rest }
    req := { s.req with
      mark := if s.eng.state = .stopping then stopMark (publishMark s.eng.fseq s.req.mark)
        else publishMark s.eng.fseq s.req.mark }
    ev := publishEvents (publishedBank s.eng) s.ev }

/-- PUBLISH: when the service has passed its last item and waits on no access (R58, R59). -/
def execPublish (s : State) : Host.Outcome State Fault Refusal :=
  .next (whenReleased s fun s =>
    if engineWaits s.port = false ∧ currentItem s = some .publish then publishService s else s)

end Sys2Proof.Machine
end

