-- ==== Sys2Proof/Machine/Operands.lean ====
section
/-! DEFINITION. How values cross the window: pairs and halfwords, the staged request and its submission
checks, the inspection halfwords, and the value every location reads. -/

namespace Sys2Proof.Machine

/-! ### Halves and pairs -/

/-- The low half of a 32-bit value (R137). -/
def lowHalf (w : BitVec 32) : Half := w.setWidth 16

/-- The high half of a 32-bit value (R137). -/
def highHalf (w : BitVec 32) : Half := (w >>> 16).setWidth 16

/-- The 32-bit value whose halves stand in two halfwords, low half first (R68). -/
def joinHalves (lo hi : Half) : BitVec 32 := hi ++ lo

/-- A cell as the pair that carries it: bit 23 copied into the upper bits (R137). -/
def sampleWord (v : Sample) : BitVec 32 := v.signExtend 32

/-- The cell that a committed pair forms: the low half and the low byte of the high half (R105, R140). -/
def formSample (lo hi : Half) : Sample := hi.setWidth 8 ++ lo

/-! ### The staged request -/

/-- The source halfword of LINE_DEFINE: the kind in the high byte, 0 INPUT and 1 BUS, the index in the low
byte, at most 15 (R68, R70). -/
def parseSource (h : Half) : Option Source :=
  if hi : h.toNat % 256 < 16 then
    if h.toNat / 256 = 0 then some (.input ⟨h.toNat % 256, hi⟩)
    else if h.toNat / 256 = 1 then some (.bus ⟨h.toNat % 256, hi⟩)
    else none
  else none

/-- The mode halfword of LINE_START: 0 FRESH, 1 KEEP (R68, R70). -/
def parseMode (h : Half) : Option StartMode :=
  if h = 0 then some .fresh else if h = 1 then some .keep else none

/-- A halfword argument below `n`, on the whole halfword (R70). -/
def parseFin (n : Nat) (h : Half) : Option (Fin n) :=
  if hn : h.toNat < n then some ⟨h.toNat, hn⟩ else none

/-- A line length of 16 to 1,048,576 (R70). -/
def parseLength (w : BitVec 32) : Option (BitVec 32) :=
  if 16 ≤ w.toNat ∧ w.toNat ≤ 1048576 then some w else none

/-- A transfer count of 1 to 65,536 (R70). -/
def parseCount (w : BitVec 32) : Option (BitVec 32) :=
  if 1 ≤ w.toNat ∧ w.toNat ≤ 65536 then some w else none

/-- A step of at most 255 (R70). -/
def parseStep (h : Half) : Option Nat := if h.toNat ≤ 255 then some h.toNat else none

/-- The request the staging halfwords describe for a kind, when every argument passes its range check
(R68, R70). -/
def parseArgs (a : Vector Half 6) : Kind → Option Request
  | .lineDefine => do
    let l ← parseFin 32 a[0]
    let n ← parseLength (joinHalves a[3] a[4])
    let src ← parseSource a[5]
    return .lineDefine l (joinHalves a[1] a[2]) n src
  | .lineRelease => do return .lineRelease (← parseFin 32 a[0])
  | .lineStart => do
    let l ← parseFin 32 a[0]
    let m ← parseMode a[1]
    return .lineStart l m
  | .lineFreeze => do return .lineFreeze (← parseFin 32 a[0])
  | .lineHalt => do return .lineHalt (← parseFin 32 a[0])
  | .tapAttach => do
    let t ← parseFin 128 a[0]
    let l ← parseFin 32 a[1]
    let b ← parseFin 16 a[4]
    return .tapAttach t l (joinHalves a[2] a[3]) b a[5]
  | .tapDetach => do return .tapDetach (← parseFin 128 a[0])
  | .tapRetarget => do
    let t ← parseFin 128 a[0]
    let k ← parseStep a[3]
    return .tapRetarget t (joinHalves a[1] a[2]) k
  | .tapGain => do
    let t ← parseFin 128 a[0]
    let b ← parseFin 16 a[2]
    return .tapGain t a[1] b
  | .mark => some .mark
  | .blockWrite => do
    let n ← parseCount (joinHalves a[2] a[3])
    return .blockWrite (joinHalves a[0] a[1]) n
  | .blockRead => do
    let n ← parseCount (joinHalves a[2] a[3])
    return .blockRead (joinHalves a[0] a[1]) n
  | .blockFill => do
    let n ← parseCount (joinHalves a[2] a[3])
    return .blockFill (joinHalves a[0] a[1]) n (formSample a[4] a[5])

/-- The kind of a kind code (R68); none for 0 and 14 to 255. -/
def kindOfCode : Nat → Option Kind
  | 1 => some .lineDefine
  | 2 => some .lineRelease
  | 3 => some .lineStart
  | 4 => some .lineFreeze
  | 5 => some .lineHalt
  | 6 => some .tapAttach
  | 7 => some .tapDetach
  | 8 => some .tapRetarget
  | 9 => some .tapGain
  | 10 => some .mark
  | 11 => some .blockWrite
  | 12 => some .blockRead
  | 13 => some .blockFill
  | _ => none

/-- The kind of a request (R68). -/
def requestKind : Request → Kind
  | .lineDefine .. => .lineDefine
  | .lineRelease .. => .lineRelease
  | .lineStart .. => .lineStart
  | .lineFreeze .. => .lineFreeze
  | .lineHalt .. => .lineHalt
  | .tapAttach .. => .tapAttach
  | .tapDetach .. => .tapDetach
  | .tapRetarget .. => .tapRetarget
  | .tapGain .. => .tapGain
  | .mark => .mark
  | .blockWrite .. => .blockWrite
  | .blockRead .. => .blockRead
  | .blockFill .. => .blockFill

/-- What SUBMIT makes of the staging area: the entry's request and tag, or the host error of the first check
that fails, kind before fields (R69). -/
def stagedRequest (r : RequestUnit) : Except HostError (Request × Tag) :=
  match kindOfCode (r.kindTag.toNat / 256) with
  | none => .error .badKind
  | some k =>
    match parseArgs r.args k with
    | none => .error .badField
    | some q => .ok (q, r.kindTag.setWidth 8)

/-! ### The inspection halfwords -/

/-- The line state code of the inspection view (R150). -/
def lineCode : LineMode → Nat
  | .idle => 1
  | .running => 2
  | .frozen _ => 3

/-- The loop field, absent outside FROZEN and then read as 0 (R2). -/
def loopOf : LineMode → Nat
  | .frozen k => k
  | _ => 0

/-- The source kind and index as codes (R150). -/
def sourceCode : Source → Nat × Nat
  | .input s => (0, s)
  | .bus b => (1, b)

/-- Eight zero halfwords: every field absent (R2, R42). -/
def inspectNothing : Vector Half 8 := Vector.replicate 8 0

/-- The inspection halfwords of a line with its derived tap count (R150). -/
def inspectLine (r : Option LineRec) (taps : Nat) : Vector Half 8 :=
  match r with
  | none => inspectNothing.set 0 (BitVec.ofNat 16 (256 * taps))
  | some r =>
    let src := sourceCode r.source
    let loop := loopOf r.mode
    #v[BitVec.ofNat 16 (lineCode r.mode + 4 * src.1 + 16 * src.2 + 256 * taps),
       BitVec.ofNat 16 r.base,
       BitVec.ofNat 16 (r.base / 65536 % 128 + 256 * (r.fill / 65536 % 32)),
       BitVec.ofNat 16 r.length,
       BitVec.ofNat 16 (r.length / 65536 % 32 + 256 * (r.head / 65536 % 16) + 4096 * (loop / 65536 % 16)),
       BitVec.ofNat 16 r.head,
       BitVec.ofNat 16 r.fill,
       BitVec.ofNat 16 loop]

/-- The inspection halfwords of a tap (R150). -/
def inspectTap (r : Option TapRec) : Vector Half 8 :=
  match r with
  | none => inspectNothing
  | some r =>
    #v[BitVec.ofNat 16 ((if r.gliding then 2 else 1) + 256 * r.line.val),
       BitVec.ofNat 16 r.current,
       BitVec.ofNat 16 (r.current / 65536 % 16 + 256 * (r.target / 65536 % 16)),
       BitVec.ofNat 16 r.target,
       BitVec.ofNat 16 (r.step % 256 + 256 * r.bus.val),
       r.gain, 0, 0]

/-- The record the selection names: bit 15 the table, bits 0-6 a tap, bits 0-4 a line (R142). -/
def inspectSelected (s : State) (sel : Half) : Vector Half 8 :=
  if sel.getLsbD 15 then inspectTap s.taps[(⟨sel.toNat % 128, Nat.mod_lt _ (by decide)⟩ : Fin 128)]
  else
    let l : Fin 32 := ⟨sel.toNat % 32, Nat.mod_lt _ (by decide)⟩
    inspectLine s.lines[l] (tapCount s l)

/-! ### What a location reads -/

/-- The ring view: the oldest record's four halfwords, or zeros when the ring is empty (R93, R149). -/
def ringTagKind (s : State) : Half :=
  match s.ring with
  | [] => 0
  | r :: _ => BitVec.ofNat 16 (256 * kindCode r.kind + r.tag.toNat)

/-- RING1: status code and aux kind of the oldest record (R149). -/
def ringStatus (s : State) : Half :=
  match s.ring with
  | [] => 0
  | r :: _ => BitVec.ofNat 16 (256 * auxCode r.aux + statusCode r.status)

/-- RING2 and RING3: the aux part of the oldest record (R93). -/
def ringAux (s : State) : BitVec 32 :=
  match s.ring with
  | [] => 0
  | r :: _ => auxValue r.aux

/-- ENGSTAT (R149). -/
def engstat (s : State) : Half :=
  BitVec.ofNat 16 (engineCode s.eng.state + 4 * s.eng.pendingTick.toNat + 16 * transferCode s.tx.active)

/-- DEPTHS: queue depth in the high byte, ring depth in the low byte (R72, R90). -/
def depths (s : State) : Half := BitVec.ofNat 16 (256 * s.req.queue.length + s.ring.length)

/-- MEMCFG: MEMSIZE in bits 0-1, refresh enable in bit 8 (R149). -/
def memcfg (s : State) : Half :=
  BitVec.ofNat 16 (s.port.memsize.toNat + 256 * s.port.refreshOn.toNat)

/-- REFSTAT: debt in the high byte, late counter in the low byte (R126, R127). -/
def refstatValue (s : State) : Half := BitVec.ofNat 16 (256 * s.port.debt + s.port.late.toNat)

/-- The value of the latched pair whose low half stands at the offset, the data port apart (R137). -/
def latchedPair (off : Nat) (s : State) : Option (BitVec 32) :=
  if off = 0x02 then some s.eng.fseq
  else if off = 0x1B then some (ringAux s)
  else if off = 0x60 then some s.host.view.frame
  else if h : 0x20 ≤ off ∧ off ≤ 0x3F ∧ off % 2 = 0 then
    some (sampleWord (s.host.slots[(off - 0x20) / 2]'(by omega)))
  else if h : 0x40 ≤ off ∧ off ≤ 0x5F ∧ off % 2 = 0 then
    some (sampleWord (s.host.view.values[(off - 0x40) / 2]'(by omega)))
  else none

/-- The high halves of the latched pairs, which read the read holding latch (R137). -/
def isLatchedHigh (off : Nat) : Bool :=
  off ∈ [0x03, 0x1C, 0x1F, 0x61] || (0x20 ≤ off && off ≤ 0x5F && off % 2 = 1)

/-- What a location reads that is no half of a latched pair (R148, R149). Undefined and write-only
locations read 0 (R136). -/
def plainRead (off : Nat) (s : State) : Half :=
  match off with
  | 0x00 => BitVec.ofNat 16 (256 * tickSourceCode s.eng.tickSource)
  | 0x01 => engstat s
  | 0x04 => s.eng.overrun
  | 0x05 => BitVec.ofNat 16 s.glideCount
  | 0x06 => depths s
  | 0x07 => s.host.errors.setWidth 16
  | 0x08 => s.ev.flags.setWidth 16
  | 0x09 => s.ev.mask.setWidth 16
  | 0x0A => memcfg s
  | 0x0B => s.port.refint.setWidth 16
  | 0x0C => refstatValue s
  | 0x0D => s.port.txtimeout
  | 0x0E => s.eng.stale
  | 0x10 => s.req.kindTag
  | 0x19 => ringTagKind s
  | 0x1A => ringStatus s
  | 0x62 => s.host.view.sat
  | 0x64 => s.host.sel
  | n =>
    if h : 0x11 ≤ n ∧ n ≤ 0x16 then s.req.args[n - 0x11]'(by omega)
    else if h : 0x65 ≤ n ∧ n ≤ 0x6C then s.host.inspect[n - 0x65]'(by omega)
    else 0

end Sys2Proof.Machine
end

