-- ==== Sys2Proof/Machine/Resets.lean ====
section
/-! DEFINITION. Soft reset, device reset and its release, and the loss of the DRAM contents (spec/07, spec/08). -/

namespace Sys2Proof.Machine

/-- The engine's soft reset keeps the tick source (R66). -/
def softEngine (e : Engine) : Engine := { Engine.reset with tickSource := e.tickSource }

/-- The port's soft reset withdraws the engine and transfer claims and leaves the operation in flight to run
to its end for no one (R65, R120, R134). -/
def softPort (p : MemoryPort) : MemoryPort :=
  { p with
    op := p.op.map fun o => { o with owned := false }
    engineClaim := none
    txClaim := none }

/-- A soft reset of every block in one step (R3, R24, R66, R87, R102, R120, R134, R144, R152, R159). -/
def softReset (s : State) : State :=
  { s with
    lines := Vector.replicate 32 none
    taps := Vector.replicate 128 none
    glideCount := 0
    eng := softEngine s.eng
    req := RequestUnit.reset
    ring := []
    tx := TransferUnit.reset
    port := softPort s.port
    host := { HostPort.reset with dataOut := s.host.dataOut }
    ev := EventUnit.reset }

/-- SOFT_RESET (R144). -/
def execSoftReset (s : State) : Host.Outcome State Fault Refusal := .next (whenReleased s softReset)

/-- DEVICE_RESET: RST# is asserted, every block takes its device reset values, the operation in flight is
abandoned and the DRAM contents are lost (R134, R145). -/
def execDeviceReset (s : State) : Host.Outcome State Fault Refusal :=
  .next { State.reset with pending := s.pending, held := true, dram := s.dram.lost }

/-- RST_RELEASE: the part proceeds from the device reset values (R145). -/
def execRstRelease (s : State) : Host.Outcome State Fault Refusal := .next { s with held := false }

/-- DRAM_CONTENTS_LOST: every cell may hold any value; the 3240 goes on as before (R127, R128, log 14). -/
def execDramContentsLost (s : State) : Host.Outcome State Fault Refusal :=
  .next { s with dram := s.dram.lost }

end Sys2Proof.Machine
end

