-- ==== Sys2Proof/Machine/HostPort.lean ====
section
/-! DEFINITION. The host's accesses to the register window (spec/04, spec/05, spec/06, spec/07, spec/08, spec/09). -/

namespace Sys2Proof.Machine

/-! ### Requests -/

/-- An accepted submission joins the tail of the queue, and is the head at once if the queue was empty
(R71, R79). -/
def enqueue (q : Request) (tag : Tag) (s : State) : State :=
  { s with req := { s.req with
      queue := s.req.queue ++ [⟨q, tag, false⟩]
      mark := if s.req.queue.isEmpty then markOfHead s.eng.state [⟨q, tag, false⟩] else s.req.mark } }

/-- A write to SUBMIT: the queue's room, then the kind, then the fields (R69). -/
def submitStaged (s : State) : State :=
  if 8 ≤ s.req.queue.length then hostError .qfull s
  else match stagedRequest s.req with
    | .error e => hostError e s
    | .ok (q, tag) => enqueue q tag s

/-- SUBMIT (R69). -/
def execSubmit (_v : Half) (s : State) : Host.Outcome State Fault Refusal := .next (whenReleased s submitStaged)

/-- An entry that a CANCEL of `tag` may choose: the tag equal and the mark clear (R95). -/
def Entry.openTo (tag : Tag) (e : Entry) : Bool := decide (e.tag = tag) && !e.cancelled

/-- The queue with the oldest open entry of a tag marked (R98). -/
def markOldest (tag : Tag) : List Entry → List Entry
  | [] => []
  | e :: rest => if e.openTo tag then { e with cancelled := true } :: rest else e :: markOldest tag rest

/-- The queue's part of a CANCEL: the oldest open entry is marked, or CANCEL_MISS (R95, R98, R99). -/
def cancelQueued (tag : Tag) (s : State) : State :=
  if s.req.queue.any (Entry.openTo tag) then
    { s with req := { s.req with queue := markOldest tag s.req.queue } }
  else hostError .cancelMiss s

/-- A CANCEL of a tag: the active transfer while it is WRITING, READING or FILLING, then the queue (R95, R96). -/
def cancelTag (tag : Tag) (s : State) : State :=
  match s.tx.active with
  | some t => if t.final.isNone ∧ t.tag = tag then cutTransfer .cancelled t s else cancelQueued tag s
  | none => cancelQueued tag s

/-- CANCEL: the tag is the low byte (R95). -/
def execCancel (v : Half) (s : State) : Host.Outcome State Fault Refusal :=
  .next (whenReleased s (cancelTag (v.setWidth 8)))

/-- A POP removes the oldest record, or sets RING_EMPTY (R94). -/
def popRing (s : State) : State :=
  if s.ring.isEmpty then hostError .ringEmpty s else { s with ring := s.ring.tail }

/-- POP (R94). -/
def execPop (_v : Half) (s : State) : Host.Outcome State Fault Refusal := .next (whenReleased s popRing)

/-! ### The data port -/

/-- A push judged in the order of R106: DATA_UNEXPECTED, then DATA_OVERRUN, then accepted. -/
def pushSample (v : Sample) (s : State) : State :=
  match s.tx.active with
  | none => hostError .dataUnexpected s
  | some t =>
    if t.final.isNone ∧ t.kind = .write ∧ t.accepted < t.count then
      if 64 ≤ s.tx.fifo.length then hostError .dataOverrun s
      else
        settleRestarted { s with tx := { s.tx with
          active := some { t with accepted := t.accepted + 1 }
          fifo := s.tx.fifo ++ [v] } }
    else hostError .dataUnexpected s

/-- A write to DATA_HI pushes the cell of the write latch and the halfword (R106, R138). -/
def pushHigh (v : Half) (s : State) : State := pushSample (formSample s.host.writeLatch v) s

/-- DATA_HI (R106). -/
def execDataHi (v : Half) (s : State) : Host.Outcome State Fault Refusal := .next (whenReleased s (pushHigh v))

/-- A read of the low half of a pair: the low half is returned and the latch takes the high half (R137). -/
def readPair (w : BitVec 32) (s : State) : State :=
  { s with host := { s.host with dataOut := lowHalf w, readLatch := highHalf w } }

/-- Delivered rises by one; the pop that brings it to count ends the read with OK (R107, R113). -/
def Transfer.cellDelivered (t : Transfer) : Transfer :=
  { t with
    delivered := t.delivered + 1
    final := if t.delivered + 1 = t.count then some .ok else none }

/-- A pop that takes the oldest cell `v` (R107). -/
def takeCell (t : Transfer) (v : Sample) (rest : List Sample) (s : State) : State :=
  settleRestarted
    (readPair (sampleWord v) { s with tx := { s.tx with active := some t.cellDelivered, fifo := rest } })

/-- A read of DATA_LO pops a cell of a READING transfer, or returns 0 and sets DATA_UNDERRUN (R107). -/
def popCell (s : State) : State :=
  match s.tx.active, s.tx.fifo with
  | some t, v :: rest =>
    if t.final.isNone ∧ t.kind = .read then takeCell t v rest s
    else hostError .dataUnderrun (readPair 0 s)
  | _, _ => hostError .dataUnderrun (readPair 0 s)

/-! ### Reads -/

/-- What a read returns while RST# is asserted: 0, whatever the offset (R145). -/
def readHeld (s : State) : State := { s with host := { s.host with dataOut := 0 } }

/-- A read of any location (R136): a pop at DATA_LO, the low half of a latched pair with its latch load, the
latch at a high half, and elsewhere the value that stands. -/
def readWindow (off : Offset) (s : State) : State :=
  if off.toNat = 0x1E then popCell s
  else match latchedPair off.toNat s with
    | some w => readPair w s
    | none =>
      { s with host := { s.host with
          dataOut := if isLatchedHigh off.toNat then s.host.readLatch else plainRead off.toNat s } }

/-- DATA_LO (R107). -/
def execDataLo (s : State) : Host.Outcome State Fault Refusal :=
  .next (if s.held then readHeld s else popCell s)

/-- LOW_HALF_READ (R137), and by its offset the read of any other location (R136, log 11). -/
def execLowHalfRead (off : Offset) (s : State) : Host.Outcome State Fault Refusal :=
  .next (if s.held then readHeld s else readWindow off s)

/-! ### Pairs, slots and views -/

/-- A write to the low half of a writable pair loads the write latch (R138). -/
def loadWriteLatch (v : Half) (s : State) : State := { s with host := { s.host with writeLatch := v } }

/-- LOW_HALF_WRITE: the two kinds of pair share one latch (R138). -/
def execLowHalfWrite (_pair : WritePair) (v : Half) (s : State) : Host.Outcome State Fault Refusal :=
  .next (whenReleased s (loadWriteLatch v))

/-- A commit of an input slot: its value and its fresh flag (R140). -/
def commitSlot (i : Fin 16) (v : Half) (s : State) : State :=
  { s with host := { s.host with
      slots := s.host.slots.set i (formSample s.host.writeLatch v)
      fresh := s.host.fresh ||| BitVec.twoPow 16 i.val } }

/-- INPUT_COMMIT (R140). -/
def execInputCommit (i : Fin 16) (v : Half) (s : State) : Host.Outcome State Fault Refusal :=
  .next (whenReleased s (commitSlot i v))

/-- OUT_LATCH copies the whole published bank into the output view (R141). -/
def latchOutputs (s : State) : State := { s with host := { s.host with view := s.eng.bank } }

/-- OUT_LATCH (R141). -/
def execOutLatch (_v : Half) (s : State) : Host.Outcome State Fault Refusal := .next (whenReleased s latchOutputs)

/-- The bits INSPECT_SEL stores: 15 and 0 to 6 (R136, R142). -/
def selectionBits (v : Half) : Half := v &&& 0x807F

/-- INSPECT_SEL stores the selection and copies the selected record (R142). -/
def selectInspection (v : Half) (s : State) : State :=
  { s with host := { s.host with sel := selectionBits v, inspect := inspectSelected s (selectionBits v) } }

/-- INSPECT_SEL (R142). -/
def execInspectSel (v : Half) (s : State) : Host.Outcome State Fault Refusal :=
  .next (whenReleased s (selectInspection v))

/-! ### Counters and flags -/

/-- A write of any value to OVERRUN clears the overrun counter (R49). -/
def clearOverrun (s : State) : State := { s with eng := { s.eng with overrun := 0 } }

/-- OVERRUN_WRITE (R49). -/
def execOverrunWrite (_v : Half) (s : State) : Host.Outcome State Fault Refusal :=
  .next (whenReleased s clearOverrun)

/-- A write of any value to REFSTAT clears the late counter and leaves the debt (R127). -/
def clearLate (s : State) : State := { s with port := { s.port with late := 0 } }

/-- REFSTAT (R127). -/
def execRefstat (_v : Half) (s : State) : Host.Outcome State Fault Refusal := .next (whenReleased s clearLate)

/-- A write to STALEMASK clears each flag written with 1 (R55). -/
def clearStale (v : Half) (s : State) : State := { s with eng := { s.eng with stale := s.eng.stale &&& ~~~v } }

/-- STALEMASK (R55). -/
def execStalemask (v : Half) (s : State) : Host.Outcome State Fault Refusal := .next (whenReleased s (clearStale v))

/-- A write to HOSTERR clears each flag written with 1 (R147). -/
def clearErrors (v : Half) (s : State) : State :=
  { s with host := { s.host with errors := s.host.errors &&& ~~~(v.setWidth 9) } }

/-- HOSTERR (R147). -/
def execHosterr (v : Half) (s : State) : Host.Outcome State Fault Refusal := .next (whenReleased s (clearErrors v))

/-- A write to EVENTS clears each flag written with 1 (R155). -/
def clearEvents (v : Half) (s : State) : State :=
  { s with ev := { s.ev with flags := s.ev.flags &&& ~~~(v.setWidth 9) } }

/-- EVENTS (R155). -/
def execEvents (v : Half) (s : State) : Host.Outcome State Fault Refusal := .next (whenReleased s (clearEvents v))

/-- A write to EVMASK stores bits 0 to 8 (R157). -/
def storeMask (v : Half) (s : State) : State := { s with ev := { s.ev with mask := v.setWidth 9 } }

/-- EVMASK (R157). -/
def execEvmask (v : Half) (s : State) : Host.Outcome State Fault Refusal := .next (whenReleased s (storeMask v))

/-! ### Memory configuration -/

/-- A change of MEMSIZE to `code` is refused: engine not STOPPED, Transfer Unit not IDLE, or a defined region
beyond the new size (R130). -/
def memsizeRefused (code : BitVec 2) (s : State) : Bool :=
  decide (s.eng.state ≠ .stopped) || s.tx.active.isSome ||
    someLine s fun _ r => decide (memoryCells code < r.base + r.length)

/-- The MEMSIZE field of a MEMCFG write (R130). -/
def setMemsize (code : BitVec 2) (s : State) : State :=
  if s.port.memsize = code then s
  else if memsizeRefused code s then hostError .configBusy s
  else { s with port := { s.port with memsize := code } }

/-- MEMSIZE (R130). -/
def execMemsize (code : BitVec 2) (s : State) : Host.Outcome State Fault Refusal :=
  .next (whenReleased s (setMemsize code))

/-- The refresh-enable field of a MEMCFG write: enabling starts a full period, disabling stops the timer and
clears the debt, and naming the state in force does nothing (R128). -/
def setRefresh (on : Bool) (s : State) : State :=
  if s.port.refreshOn = on then s
  else if on then
    { s with port := { s.port with refreshOn := true, refreshTimer := some s.port.refint.toNat, debt := 0 } }
  else { s with port := { s.port with refreshOn := false, refreshTimer := none, debt := 0 } }

/-- REFRESH_ENABLE (R128). -/
def execRefreshEnable (on : Bool) (s : State) : Host.Outcome State Fault Refusal :=
  .next (whenReleased s (setRefresh on))

/-- A write of REFINT: the low byte, refused with CONFIG_BUSY when 0 (R129). -/
def setRefint (v : Half) (s : State) : State :=
  if v.setWidth 8 = (0 : BitVec 8) then hostError .configBusy s
  else { s with port := { s.port with refint := v.setWidth 8 } }

/-- REFINT (R129). -/
def execRefint (v : Half) (s : State) : Host.Outcome State Fault Refusal := .next (whenReleased s (setRefint v))

/-- A write of TXTIMEOUT stores the halfword and starts the starvation timer anew, or stops it (R115, R132). -/
def setTimeout (v : Half) (s : State) : State :=
  { s with
    port := { s.port with txtimeout := v }
    tx := { s.tx with timer := timerRestarted s.tx { s.port with txtimeout := v } } }

/-- TXTIMEOUT (R132). -/
def execTxtimeout (v : Half) (s : State) : Host.Outcome State Fault Refusal := .next (whenReleased s (setTimeout v))

/-! ### Writes of whole locations -/

/-- A write of CTRL: SOFT_RESET alone if it is carried, otherwise the source field, ENGINE_STOP, ENGINE_GO
and STEP in this order, each seeing what the parts before it left (R47, R143). -/
def writeCtrl (v : Half) (s : State) : State :=
  if v.getLsbD 3 then softReset s
  else
    let s := sourceRequest (v.extractLsb' 8 2) s
    let s := if v.getLsbD 1 then stopRequest s else s
    let s := if v.getLsbD 0 then goRequest s else s
    if v.getLsbD 2 then stepRequest s else s

/-- A write of MEMCFG takes both fields; the refresh-enable field is taken whatever becomes of the MEMSIZE
field (R128, R130). -/
def writeMemcfg (v : Half) (s : State) : State := setRefresh (v.getLsbD 8) (setMemsize (v.setWidth 2) s)

/-- A write of a staging argument (R67). -/
def stageArg (k : Fin 6) (v : Half) (s : State) : State :=
  { s with req := { s.req with args := s.req.args.set k v } }

/-- A write of an input slot location: the low half loads the latch, the high half commits (R138, R140). -/
def writeSlot (n : Fin 32) (v : Half) (s : State) : State :=
  if n.val % 2 = 0 then loadWriteLatch v s else commitSlot ⟨n.val / 2, by omega⟩ v s

/-- A write at any offset: what the location's access allows, or nothing at a read-only or undefined one
(R136, R149). -/
def writeWindow (off : Offset) (v : Half) (s : State) : State :=
  match off.toNat with
  | 0x00 => writeCtrl v s
  | 0x04 => clearOverrun s
  | 0x07 => clearErrors v s
  | 0x08 => clearEvents v s
  | 0x09 => storeMask v s
  | 0x0A => writeMemcfg v s
  | 0x0B => setRefint v s
  | 0x0C => clearLate s
  | 0x0D => setTimeout v s
  | 0x0E => clearStale v s
  | 0x10 => { s with req := { s.req with kindTag := v } }
  | 0x17 => submitStaged s
  | 0x18 => cancelTag (v.setWidth 8) s
  | 0x1D => popRing s
  | 0x1E => loadWriteLatch v s
  | 0x1F => pushHigh v s
  | 0x63 => latchOutputs s
  | 0x64 => selectInspection v s
  | n =>
    if h : 0x11 ≤ n ∧ n ≤ 0x16 then stageArg ⟨n - 0x11, by omega⟩ v s
    else if h : 0x20 ≤ n ∧ n ≤ 0x3F then writeSlot ⟨n - 0x20, by omega⟩ v s
    else s

/-- REGISTER_WRITE (R136, log 11). -/
def execRegisterWrite (off : Offset) (v : Half) (s : State) : Host.Outcome State Fault Refusal :=
  .next (whenReleased s (writeWindow off v))

end Sys2Proof.Machine
end

