-- ==== Sys2Proof/Machine/Port.lean ====
section
/-! DEFINITION. The Memory Port: grants and completions of every operation, refresh, and the two timers
(spec/06, spec/07). -/

namespace Sys2Proof.Machine

/-- The port begins an operation of its claimant (R121). -/
def beginOp (op : DramOp) (p : MemoryPort) : MemoryPort := { p with op := some ⟨op, true⟩ }

/-- The port is free again (R121). -/
def freePort (s : State) : State := { s with port := { s.port with op := none } }

/-! ### Engine operations -/

/-- A line's record after the grant of its write (R4). -/
def LineRec.written (r : LineRec) : LineRec :=
  { r with
    head := (r.head + 1) % r.length
    fill := if r.fill < r.length then r.fill + 1 else r.fill }

/-- The grant of a line write: the cell takes the value, head and fill advance, the port begins it (R4). -/
def grantLineWrite (l : Fin 32) (cell : Nat) (value : Sample) (s : State) : State :=
  { s with
    lines := s.lines.set l ((s.lines[l]).map LineRec.written)
    dram := s.dram.write cell value
    port := beginOp (.lineWrite l) { s.port with engineClaim := none } }

/-- LINE_WRITE_GRANT: when the arbiter grants the engine and its claim is a line write (R123). -/
def execLineWriteGrant (s : State) : Host.Outcome State Fault Refusal :=
  .next (whenReleased s fun s =>
    match arbiter s.port, s.port.engineClaim with
    | some .engine, some ⟨.lineWrite l cell value, _⟩ => grantLineWrite l cell value s
    | _, _ => s)

/-- LINE_WRITE_COMPLETION: the port is free, and the engine goes on to its next line, if the write is still
its own (R57, R134). -/
def execLineWriteCompletion (s : State) : Host.Outcome State Fault Refusal :=
  .next (whenReleased s fun s =>
    match s.port.op with
    | some ⟨.lineWrite l, owned⟩ =>
      if owned then atStage (.lineWrites (l.val + 1)) (freePort s) else freePort s
    | _ => s)

/-- TAP_READ_GRANT: when the arbiter grants the engine and its claim is a tap read (R123). -/
def execTapReadGrant (s : State) : Host.Outcome State Fault Refusal :=
  .next (whenReleased s fun s =>
    match arbiter s.port, s.port.engineClaim with
    | some .engine, some ⟨.tapRead t cell, _⟩ =>
      { s with port := beginOp (.tapRead t cell) { s.port with engineClaim := none } }
    | _, _ => s)

/-- A tap's product: gain times sample, exact (R35). -/
def tapProduct (gain : BitVec 16) (v : Sample) : Int := gain.toInt * v.toInt

/-- Adding a tap's product into the accumulator of its bus (R36). -/
def addProduct (t : Fin 128) (v : Sample) (s : State) : State :=
  match s.taps[t] with
  | none => s
  | some r =>
    { s with eng := { s.eng with acc := s.eng.acc.set r.bus (s.eng.acc[r.bus] + tapProduct r.gain v) } }

/-- The DRAM has returned `n` cells. -/
def countReads (n : Nat) (s : State) : State := { s with dram := s.dram.counted n }

/-- TAP_READ_COMPLETION: the product is added and the engine goes on to the next tap; a read disowned by a
soft reset is discarded (R36, R58, R134). -/
def execTapReadCompletion (s : State) : Host.Outcome State Fault Refusal :=
  .next (whenReleased s fun s =>
    match s.port.op with
    | some ⟨.tapRead t cell, owned⟩ =>
      let done := countReads 1 (freePort s)
      if owned then atStage (.tapReads (t.val + 1)) (addProduct t (s.dram.read cell) done) else done
    | _ => s)

/-! ### Bursts -/

/-- The claim of the transfer becomes an operation in flight. -/
def grantBurst (op : DramOp) (s : State) : State :=
  { s with port := beginOp op { s.port with txClaim := none } }

/-- The grant of a write burst takes the oldest cells out of the FIFO; DATA_REQUEST when the free space rises
from below 32 to 32 or more in WRITING (R109, R110). -/
def grantWriteBurst (address size : Nat) (s : State) : State :=
  { grantBurst (.writeBurst address (s.tx.fifo.take size)) s with
    tx := { s.tx with fifo := s.tx.fifo.drop size }
    ev := raiseFlagIf
      (isWriting s.tx && decide (64 - s.tx.fifo.length < 32) && decide (32 ≤ 64 - (s.tx.fifo.drop size).length))
      .dataRequest s.ev }

/-- WRITE_BURST_GRANT (R109). -/
def execWriteBurstGrant (s : State) : Host.Outcome State Fault Refusal :=
  .next (whenReleased s fun s =>
    match arbiter s.port, s.port.txClaim with
    | some .transfer, some ⟨.write, address, size⟩ => grantWriteBurst address size s
    | _, _ => s)

/-- READ_BURST_GRANT (R123). -/
def execReadBurstGrant (s : State) : Host.Outcome State Fault Refusal :=
  .next (whenReleased s fun s =>
    match arbiter s.port, s.port.txClaim with
    | some .transfer, some ⟨.read, address, size⟩ => grantBurst (.readBurst address size) s
    | _, _ => s)

/-- FILL_BURST_GRANT (R123). -/
def execFillBurstGrant (s : State) : Host.Outcome State Fault Refusal :=
  .next (whenReleased s fun s =>
    match arbiter s.port, s.port.txClaim with
    | some .transfer, some ⟨.fill v, address, size⟩ => grantBurst (.fillBurst address size v) s
    | _, _ => s)

/-- The cells of a burst are in DRAM. -/
def storeCells (address : Nat) (cells : List Sample) (s : State) : State :=
  { s with dram := s.dram.writeMany address cells }

/-- Written rises by a burst's size; in WRITING or FILLING the transfer ends with OK when written reaches
count, and a final status already fixed stays (R109, R114). -/
def Transfer.burstWritten (n : Nat) (t : Transfer) : Transfer :=
  { t with
    written := t.written + n
    final := if t.final.isNone ∧ t.written + n = t.count then some .ok else t.final }

/-- The active transfer after the completion of a write or fill burst of its own. -/
def raiseWritten (n : Nat) (s : State) : State :=
  { s with tx := { s.tx with active := s.tx.active.map (Transfer.burstWritten n) } }

/-- The completion of a write or fill burst: the cells are in DRAM, the port is free, and the transfer, if it
still owns the burst, counts them (R109, R114, R120). -/
def completeStore (owned : Bool) (address : Nat) (cells : List Sample) (s : State) : State :=
  settleTransfer
    (if owned then raiseWritten cells.length (storeCells address cells (freePort s))
     else storeCells address cells (freePort s))

/-- WRITE_BURST_COMPLETION (R109). -/
def execWriteBurstCompletion (s : State) : Host.Outcome State Fault Refusal :=
  .next (whenReleased s fun s =>
    match s.port.op with
    | some ⟨.writeBurst address cells, owned⟩ => completeStore owned address cells s
    | _ => s)

/-- FILL_BURST_COMPLETION: every cell of the burst holds the transfer's value (R114). -/
def execFillBurstCompletion (s : State) : Host.Outcome State Fault Refusal :=
  .next (whenReleased s fun s =>
    match s.port.op with
    | some ⟨.fillBurst address size v, owned⟩ => completeStore owned address (List.replicate size v) s
    | _ => s)

/-- The read threshold (R112). -/
def readThreshold (t : Transfer) : Nat := min 32 (t.count - t.delivered)

/-- Cells of a read burst enter the FIFO: fetched rises, and DATA_REQUEST when the FIFO count reaches the read
threshold; a transfer that has ended takes none (R96, R112). -/
def fetchCells (cells : List Sample) (s : State) : State :=
  match s.tx.active with
  | none => s
  | some t =>
    if t.final.isSome then s
    else
      { s with
        tx := { s.tx with
          active := some { t with fetched := t.fetched + cells.length }
          fifo := s.tx.fifo ++ cells }
        ev := raiseFlagIf
          (decide (s.tx.fifo.length < readThreshold t) &&
            decide (readThreshold t ≤ s.tx.fifo.length + cells.length)) .dataRequest s.ev }

/-- READ_BURST_COMPLETION: the cells enter the FIFO; those of a burst disowned by a soft reset are discarded
(R112, R120). -/
def execReadBurstCompletion (s : State) : Host.Outcome State Fault Refusal :=
  .next (whenReleased s fun s =>
    match s.port.op with
    | some ⟨.readBurst address size, owned⟩ =>
      let done := countReads size (freePort s)
      settleTransfer (if owned then fetchCells (s.dram.readMany address size) done else done)
    | _ => s)

/-! ### Refresh -/

/-- REFRESH_GRANT: when the arbiter grants refresh, normal or urgent by the debt at this grant (R123). -/
def execRefreshGrant (s : State) : Host.Outcome State Fault Refusal :=
  .next (whenReleased s fun s =>
    if arbiter s.port = some .refresh then { s with port := beginOp .refresh s.port } else s)

/-- REFRESH_COMPLETION: the debt falls by one, or stays at 0, and an engine claim that waited passes into the
first rank (R123, R126). -/
def execRefreshCompletion (s : State) : Host.Outcome State Fault Refusal :=
  .next (whenReleased s fun s =>
    match s.port.op with
    | some ⟨.refresh, _⟩ =>
      { s with port := { s.port with
          op := none
          debt := s.port.debt - 1
          engineClaim := s.port.engineClaim.map fun c => { c with promoted := true } } }
    | _ => s)

/-- An expiry of the Refresh Timer: the debt rises, or at 8 the expiry is late; the timer starts again with
the period REFINT holds (R125, R127). -/
def refreshExpires (s : State) : State :=
  { s with
    port := { s.port with
      refreshTimer := some s.port.refint.toNat
      debt := if s.port.debt < 8 then s.port.debt + 1 else s.port.debt
      late := if s.port.debt < 8 then s.port.late else satSucc s.port.late }
    ev := raiseFlagIf (decide (8 ≤ s.port.debt)) .refreshLate s.ev }

/-- REFRESH_TIMER_EXPIRY: an expiry occurs only while the timer runs (R125, log 13). -/
def execRefreshTimerExpiry (s : State) : Host.Outcome State Fault Refusal :=
  .next (whenReleased s fun s => if s.port.refreshTimer.isSome then refreshExpires s else s)

/-! ### The starvation timer -/

/-- The expiry of the starvation timer ends the transfer with STALLED and flushes the FIFO (R116). -/
def starvationExpires (s : State) : State :=
  match s.tx.active with
  | some t => if t.final.isNone then cutTransfer .stalled t s else s
  | none => s

/-- STARVATION_TIMER_EXPIRY: an expiry occurs only while the timer runs (R115, R116, log 13). -/
def execStarvationTimerExpiry (s : State) : Host.Outcome State Fault Refusal :=
  .next (whenReleased s fun s => if s.tx.timer.isSome then starvationExpires s else s)

/-! ### One period of TCLK -/

/-- A period of TCLK at the Refresh Timer (R125). -/
def countRefreshTimer (s : State) : State :=
  match s.port.refreshTimer with
  | none => s
  | some n =>
    if n ≤ 1 then refreshExpires s else { s with port := { s.port with refreshTimer := some (n - 1) } }

/-- A period of TCLK at the starvation timer (R115). -/
def countStarvationTimer (s : State) : State :=
  match s.tx.timer with
  | none => s
  | some n =>
    if n ≤ 1 then starvationExpires s else { s with tx := { s.tx with timer := some (n - 1) } }

/-- One period of TCLK: what a step does when no command waits (log 3). -/
def tclkPeriod (s : State) : State :=
  whenReleased s fun s => countStarvationTimer (countRefreshTimer s)

end Sys2Proof.Machine
end

