-- ==== Sys2Proof/Machine/Requests.lean ====
section
/-! DEFINITION. The Request Unit at the head of its queue: cancelled heads, table applications, marks,
transfer handovers, and the completion of a transfer (spec/01, spec/02, spec/04, spec/05). -/

namespace Sys2Proof.Machine

/-- CANCELLED_HEAD_COMPLETION: a marked head is removed with a CANCELLED record once a ring slot is free,
in every state of the engine and the Transfer Unit (R75). -/
def execCancelledHeadCompletion (s : State) : Host.Outcome State Fault Refusal :=
  .next (whenReleased s fun s =>
    match s.req.queue with
    | [] => s
    | h :: _ =>
      if h.cancelled && ringFree s then
        completeHead ⟨h.tag, requestKind h.request, .cancelled, .none⟩ s
      else s)

/-! ### Line requests -/

/-- The region base, length overlaps that of a defined line other than `l` (R12, R15). -/
def overlapsOtherLine (l : Fin 32) (base length : Nat) (s : State) : Bool :=
  someLine s fun k r => decide (k ≠ l) && rangesOverlap base length r.base r.length

/-- An attached tap on line `l` has a delay that does not fit length `n` (R16). -/
def tapBeyond (l : Fin 32) (n : Nat) (s : State) : Bool :=
  someTap s fun t => decide (t.line = l) && (decide (n ≤ t.current) || decide (n ≤ t.target))

/-- The active transfer's range overlaps the region, in any state but IDLE (R13, R18). -/
def transferOverlaps (base length : Nat) (s : State) : Bool :=
  s.tx.active.any fun t => rangesOverlap base length t.address t.count

/-- LINE_DEFINE's checks and change (R15, R16). -/
def defineLine (l : Fin 32) (base length : Nat) (src : Source) (s : State) : Except Status State :=
  if (s.lines[l]).any fun r => decide (r.mode ≠ .idle) then .error .wrongState
  else if memoryCells s.port.memsize < base + length then .error .range
  else if overlapsOtherLine l base length s then .error .overlap
  else if (s.lines[l]).isSome && tapBeyond l length s then .error .tapRange
  else .ok (setLine l (some ⟨base, length, 0, 0, src, .idle⟩) s)

/-- LINE_RELEASE's checks and change (R17). -/
def releaseLine (l : Fin 32) (s : State) : Except Status State :=
  match s.lines[l] with
  | none => .error .wrongState
  | some r =>
    if r.mode ≠ .idle then .error .wrongState
    else if tapCount s l ≠ 0 then .error .hasTaps
    else .ok (setLine l none s)

/-- The record of a line that LINE_START takes to RUNNING, by mode and the state it came from (R19). -/
def LineRec.started (m : StartMode) (r : LineRec) : LineRec :=
  match m, r.mode with
  | .fresh, _ => { r with head := 0, fill := 0, mode := .running }
  | .keep, .idle => { r with fill := r.length, mode := .running }
  | .keep, _ => { r with mode := .running }

/-- LINE_START's checks and change (R18, R19). -/
def startLine (l : Fin 32) (m : StartMode) (s : State) : Except Status State :=
  match s.lines[l] with
  | none => .error .wrongState
  | some r =>
    if r.mode = .running then .error .wrongState
    else if transferOverlaps r.base r.length s then .error .regionBusy
    else .ok (setLine l (some (r.started m)) s)

/-- LINE_FREEZE's check and change (R20). -/
def freezeLine (l : Fin 32) (s : State) : Except Status State :=
  match s.lines[l] with
  | none => .error .wrongState
  | some r =>
    if r.mode = .running then .ok (setLine l (some { r with mode := .frozen 0 }) s) else .error .wrongState

/-- LINE_HALT's check and change (R21). -/
def haltLine (l : Fin 32) (s : State) : Except Status State :=
  match s.lines[l] with
  | none => .error .wrongState
  | some r =>
    if r.mode = .idle then .error .wrongState else .ok (setLine l (some { r with mode := .idle }) s)

/-- LINE_DEFINE (R15). -/
def execLineDefine (s : State) : Host.Outcome State Fault Refusal :=
  .next (whenReleased s fun s =>
    match openHead s with
    | some (.lineDefine l base length src, tag) =>
      if applicationEnabled s then
        finishApplication .lineDefine tag (defineLine l base.toNat length.toNat src s) s
      else s
    | _ => s)

/-- LINE_RELEASE (R17). -/
def execLineRelease (s : State) : Host.Outcome State Fault Refusal :=
  .next (whenReleased s fun s =>
    match openHead s with
    | some (.lineRelease l, tag) =>
      if applicationEnabled s then finishApplication .lineRelease tag (releaseLine l s) s else s
    | _ => s)

/-- LINE_START (R18). -/
def execLineStart (s : State) : Host.Outcome State Fault Refusal :=
  .next (whenReleased s fun s =>
    match openHead s with
    | some (.lineStart l m, tag) =>
      if applicationEnabled s then finishApplication .lineStart tag (startLine l m s) s else s
    | _ => s)

/-- LINE_FREEZE (R20). -/
def execLineFreeze (s : State) : Host.Outcome State Fault Refusal :=
  .next (whenReleased s fun s =>
    match openHead s with
    | some (.lineFreeze l, tag) =>
      if applicationEnabled s then finishApplication .lineFreeze tag (freezeLine l s) s else s
    | _ => s)

/-- LINE_HALT (R21). -/
def execLineHalt (s : State) : Host.Outcome State Fault Refusal :=
  .next (whenReleased s fun s =>
    match openHead s with
    | some (.lineHalt l, tag) =>
      if applicationEnabled s then finishApplication .lineHalt tag (haltLine l s) s else s
    | _ => s)

/-! ### Tap requests -/

/-- TAP_ATTACH's checks and change (R26). -/
def attachTap (t : Fin 128) (l : Fin 32) (delay : Nat) (b : Fin 16) (g : BitVec 16) (s : State) :
    Except Status State :=
  if (s.taps[t]).isSome then .error .wrongState
  else match s.lines[l] with
    | none => .error .wrongState
    | some r =>
      if delay < r.length then .ok (setTap t (some ⟨l, delay, delay, 0, b, g, false⟩) s)
      else .error .range

/-- TAP_DETACH's check and change; the glide count falls with a GLIDING tap (R27). -/
def detachTap (t : Fin 128) (s : State) : Except Status State :=
  match s.taps[t] with
  | none => .error .wrongState
  | some r => .ok (if r.gliding then glideCountFalls (setTap t none s) else setTap t none s)

/-- The glide count after a retarget, by the tap's state before and after (R28). -/
def retargetCount (before after : Bool) (s : State) : State :=
  match before, after with
  | false, true => glideCountRises s
  | true, false => glideCountFalls s
  | _, _ => s

/-- TAP_RETARGET's checks and change (R28). -/
def retargetTap (t : Fin 128) (target step : Nat) (s : State) : Except Status State :=
  match s.taps[t] with
  | none => .error .wrongState
  | some r =>
    if (s.lines[r.line]).any fun lr => decide (target < lr.length) then
      .ok (retargetCount r.gliding (decide (target ≠ r.current))
        (setTap t (some { r with target := target, step := step, gliding := decide (target ≠ r.current) }) s))
    else .error .range

/-- TAP_GAIN's check and change (R29). -/
def gainTap (t : Fin 128) (g : BitVec 16) (b : Fin 16) (s : State) : Except Status State :=
  match s.taps[t] with
  | none => .error .wrongState
  | some r => .ok (setTap t (some { r with gain := g, bus := b }) s)

/-- TAP_ATTACH (R26). -/
def execTapAttach (s : State) : Host.Outcome State Fault Refusal :=
  .next (whenReleased s fun s =>
    match openHead s with
    | some (.tapAttach t l delay b g, tag) =>
      if applicationEnabled s then finishApplication .tapAttach tag (attachTap t l delay.toNat b g s) s else s
    | _ => s)

/-- TAP_DETACH (R27). -/
def execTapDetach (s : State) : Host.Outcome State Fault Refusal :=
  .next (whenReleased s fun s =>
    match openHead s with
    | some (.tapDetach t, tag) =>
      if applicationEnabled s then finishApplication .tapDetach tag (detachTap t s) s else s
    | _ => s)

/-- TAP_RETARGET (R28). -/
def execTapRetarget (s : State) : Host.Outcome State Fault Refusal :=
  .next (whenReleased s fun s =>
    match openHead s with
    | some (.tapRetarget t target step, tag) =>
      if applicationEnabled s then finishApplication .tapRetarget tag (retargetTap t target.toNat step s) s
      else s
    | _ => s)

/-- TAP_GAIN (R29). -/
def execTapGain (s : State) : Host.Outcome State Fault Refusal :=
  .next (whenReleased s fun s =>
    match openHead s with
    | some (.tapGain t g b, tag) =>
      if applicationEnabled s then finishApplication .tapGain tag (gainTap t g b s) s else s
    | _ => s)

/-! ### MARK -/

/-- The status and aux part of a MARK that is DUE (R74, R80, R81). -/
def dueMark : Option MarkState → Option (Status × Aux)
  | some (.dueOk n) => some (.ok, .frame n)
  | some .dueStopped => some (.engineStopped, .none)
  | _ => none

/-- MARK: a DUE MARK at the head is removed with its record once a ring slot is free, in every engine
state (R82). -/
def execMark (s : State) : Host.Outcome State Fault Refusal :=
  .next (whenReleased s fun s =>
    match openHead s with
    | some (.mark, tag) =>
      match dueMark s.req.mark with
      | some (status, aux) => if ringFree s then completeHead ⟨tag, .mark, status, aux⟩ s else s
      | none => s
    | _ => s)

/-! ### Transfers -/

/-- The handover event is enabled while the Transfer Unit is IDLE and a ring slot is free (R83). -/
def handoverEnabled (s : State) : Bool := s.tx.active.isNone && ringFree s

/-- The status a handover refuses a range with, if it does: RANGE beyond the memory, REGION_BUSY over a
RUNNING line (R83). -/
def handoverRefusal (address count : Nat) (s : State) : Option Status :=
  if memoryCells s.port.memsize < address + count then some .range
  else if someLine s fun _ r => decide (r.mode = .running) && rangesOverlap address count r.base r.length then
    some .regionBusy
  else none

/-- The entry becomes the active transfer with its counts 0 (R84). -/
def acceptTransfer (tag : Tag) (k : TransferKind) (address count : Nat) (s : State) : State :=
  settleTransfer
    { removeHead s with
      tx := ⟨some ⟨tag, k, address, count, 0, 0, 0, 0, none⟩, s.tx.fifo, s.tx.timer⟩
      ev := raiseFlagIf (decide (k = .write)) .dataRequest s.ev }

/-- The handover of a transfer: refused with CELLS 0, or accepted (R83, R84). -/
def handOver (tag : Tag) (k : TransferKind) (address count : Nat) (s : State) : State :=
  match handoverRefusal address count s with
  | some status => completeHead ⟨tag, transferRequestKind k, status, .cells 0⟩ s
  | none => acceptTransfer tag k address count s

/-- BLOCK_WRITE (R84). -/
def execBlockWrite (s : State) : Host.Outcome State Fault Refusal :=
  .next (whenReleased s fun s =>
    match openHead s with
    | some (.blockWrite address count, tag) =>
      if handoverEnabled s then handOver tag .write address.toNat count.toNat s else s
    | _ => s)

/-- BLOCK_READ (R84). -/
def execBlockRead (s : State) : Host.Outcome State Fault Refusal :=
  .next (whenReleased s fun s =>
    match openHead s with
    | some (.blockRead address count, tag) =>
      if handoverEnabled s then handOver tag .read address.toNat count.toNat s else s
    | _ => s)

/-- BLOCK_FILL (R84). -/
def execBlockFill (s : State) : Host.Outcome State Fault Refusal :=
  .next (whenReleased s fun s =>
    match openHead s with
    | some (.blockFill address count value, tag) =>
      if handoverEnabled s then handOver tag (.fill value) address.toNat count.toNat s else s
    | _ => s)

/-- TRANSFER_COMPLETION: from FINISHING, with a ring slot free and no burst of its own in flight, the record
is written and the unit goes to IDLE (R117). -/
def execTransferCompletion (s : State) : Host.Outcome State Fault Refusal :=
  .next (whenReleased s fun s =>
    match s.tx.active with
    | none => s
    | some t =>
      match t.final with
      | none => s
      | some f =>
        if ringFree s && !ownBurstInFlight s.port then
          pushRecord ⟨t.tag, transferRequestKind t.kind, finalStatus f, .cells (cellsDone t)⟩
            { s with tx := { s.tx with active := none } }
        else s)

end Sys2Proof.Machine
end

