-- ==== Sys2Proof/Machine/Dispatch.lean ====
section
/-! DEFINITION. The dispatch of a command to its meaning, one arm per row of spec/opcode_table.json. -/

namespace Sys2Proof.Machine

/-- The effect of a command on everything but the queue. -/
def exec (i : Instr) (s : State) : Host.Outcome State Fault Refusal :=
  match i with
  | .tickArrival => Sys2Proof.Machine.execTickArrival s
  | .step => Sys2Proof.Machine.execStep s
  | .engineGo => Sys2Proof.Machine.execEngineGo s
  | .engineStop => Sys2Proof.Machine.execEngineStop s
  | .tickSource field => Sys2Proof.Machine.execTickSource field s
  | .softReset => Sys2Proof.Machine.execSoftReset s
  | .deviceReset => Sys2Proof.Machine.execDeviceReset s
  | .pendingStart => Sys2Proof.Machine.execPendingStart s
  | .glideStage => Sys2Proof.Machine.execGlideStage s
  | .lineWriteStage => Sys2Proof.Machine.execLineWriteStage s
  | .tapReadStage => Sys2Proof.Machine.execTapReadStage s
  | .publish => Sys2Proof.Machine.execPublish s
  | .lineWriteGrant => Sys2Proof.Machine.execLineWriteGrant s
  | .lineWriteCompletion => Sys2Proof.Machine.execLineWriteCompletion s
  | .tapReadGrant => Sys2Proof.Machine.execTapReadGrant s
  | .tapReadCompletion => Sys2Proof.Machine.execTapReadCompletion s
  | .writeBurstGrant => Sys2Proof.Machine.execWriteBurstGrant s
  | .writeBurstCompletion => Sys2Proof.Machine.execWriteBurstCompletion s
  | .readBurstGrant => Sys2Proof.Machine.execReadBurstGrant s
  | .readBurstCompletion => Sys2Proof.Machine.execReadBurstCompletion s
  | .fillBurstGrant => Sys2Proof.Machine.execFillBurstGrant s
  | .fillBurstCompletion => Sys2Proof.Machine.execFillBurstCompletion s
  | .refreshGrant => Sys2Proof.Machine.execRefreshGrant s
  | .refreshCompletion => Sys2Proof.Machine.execRefreshCompletion s
  | .refreshTimerExpiry => Sys2Proof.Machine.execRefreshTimerExpiry s
  | .starvationTimerExpiry => Sys2Proof.Machine.execStarvationTimerExpiry s
  | .cancelledHeadCompletion => Sys2Proof.Machine.execCancelledHeadCompletion s
  | .lineDefine => Sys2Proof.Machine.execLineDefine s
  | .lineRelease => Sys2Proof.Machine.execLineRelease s
  | .lineStart => Sys2Proof.Machine.execLineStart s
  | .lineFreeze => Sys2Proof.Machine.execLineFreeze s
  | .lineHalt => Sys2Proof.Machine.execLineHalt s
  | .tapAttach => Sys2Proof.Machine.execTapAttach s
  | .tapDetach => Sys2Proof.Machine.execTapDetach s
  | .tapRetarget => Sys2Proof.Machine.execTapRetarget s
  | .tapGain => Sys2Proof.Machine.execTapGain s
  | .mark => Sys2Proof.Machine.execMark s
  | .blockWrite => Sys2Proof.Machine.execBlockWrite s
  | .blockRead => Sys2Proof.Machine.execBlockRead s
  | .blockFill => Sys2Proof.Machine.execBlockFill s
  | .transferCompletion => Sys2Proof.Machine.execTransferCompletion s
  | .submit v => Sys2Proof.Machine.execSubmit v s
  | .cancel v => Sys2Proof.Machine.execCancel v s
  | .pop v => Sys2Proof.Machine.execPop v s
  | .dataHi v => Sys2Proof.Machine.execDataHi v s
  | .dataLo => Sys2Proof.Machine.execDataLo s
  | .lowHalfWrite pair v => Sys2Proof.Machine.execLowHalfWrite pair v s
  | .lowHalfRead off => Sys2Proof.Machine.execLowHalfRead off s
  | .inputCommit slot v => Sys2Proof.Machine.execInputCommit slot v s
  | .outLatch v => Sys2Proof.Machine.execOutLatch v s
  | .inspectSel v => Sys2Proof.Machine.execInspectSel v s
  | .overrunWrite v => Sys2Proof.Machine.execOverrunWrite v s
  | .refstat v => Sys2Proof.Machine.execRefstat v s
  | .stalemask v => Sys2Proof.Machine.execStalemask v s
  | .hosterr v => Sys2Proof.Machine.execHosterr v s
  | .events v => Sys2Proof.Machine.execEvents v s
  | .evmask v => Sys2Proof.Machine.execEvmask v s
  | .memsize code => Sys2Proof.Machine.execMemsize code s
  | .refreshEnable on => Sys2Proof.Machine.execRefreshEnable on s
  | .refint v => Sys2Proof.Machine.execRefint v s
  | .txtimeout v => Sys2Proof.Machine.execTxtimeout v s
  | .registerWrite off v => Sys2Proof.Machine.execRegisterWrite off v s
  | .rstRelease => Sys2Proof.Machine.execRstRelease s
  | .dramContentsLost => Sys2Proof.Machine.execDramContentsLost s

end Sys2Proof.Machine
end

