-- ==== Sys2Proof/Safety.lean ====
section
/-! DEFINITION. What the rules say always holds: the invariants of the machine, each on the state alone. -/

namespace Sys2Proof.Machine

/-! ### Lines and taps -/

/-- A defined line's record meets R1 and R11 under a memory of `mem` cells. -/
def LineRec.inRange (mem : Nat) (r : LineRec) : Bool :=
  decide (16 ≤ r.length) && decide (r.length ≤ 1048576) && decide (r.base + r.length ≤ mem) &&
    decide (r.head < r.length) && decide (r.fill ≤ r.length) && decide (loopOf r.mode < r.length)

/-- A queued request passed the length check of R70: a LINE_DEFINE's length is 16 to 1,048,576. -/
def lengthChecked : Request → Bool
  | .lineDefine _ _ n _ => decide (16 ≤ n.toNat) && decide (n.toNat ≤ 1048576)
  | _ => true

/-- Every defined line meets R1 and R11, the regions of two defined lines are disjoint (R11), and every
queued definition has a length that R70 admits. -/
def LinesSound (s : State) : Prop :=
  (∀ l : Fin 32, ∀ r ∈ s.lines[l], r.inRange (memoryCells s.port.memsize) = true) ∧
    (∀ l k : Fin 32, l ≠ k → ∀ r ∈ s.lines[l], ∀ q ∈ s.lines[k],
      rangesOverlap r.base r.length q.base q.length = false) ∧
    ∀ e ∈ s.req.queue, lengthChecked e.request = true

/-- Every attached tap refers to a defined line and its delays are below that line's length (R23). -/
def TapsSound (s : State) : Prop :=
  ∀ t : Fin 128, ∀ r ∈ s.taps[t],
    (s.lines[r.line]).any (fun lr => decide (r.current < lr.length) && decide (r.target < lr.length)) = true

/-- The state of an attached tap follows its two delays, and the glide count is the number of gliding
taps (R23, R31). -/
def GlidesSound (s : State) : Prop :=
  (∀ t : Fin 128, ∀ r ∈ s.taps[t], r.gliding = decide (r.target ≠ r.current)) ∧
    s.glideCount = glidingTaps s

/-- While the Transfer Unit is not IDLE, no RUNNING line's region overlaps its range (R13). -/
def TransferClearOfRunningLines (s : State) : Prop :=
  ∀ l : Fin 32, ∀ r ∈ s.lines[l], r.mode = .running →
    ∀ t ∈ s.tx.active, rangesOverlap r.base r.length t.address t.count = false

/-! ### Capacities -/

/-- The queue, the ring and the debt within their capacities (R72, R90, R126). -/
def WithinCapacities (s : State) : Prop :=
  s.req.queue.length ≤ 8 ∧ s.ring.length ≤ 16 ∧ s.port.debt ≤ 8

/-! ### The Frame Engine -/

/-- The pending tick is 0 whenever the engine is STOPPED (R43). -/
def StoppedHoldsNoTick (s : State) : Prop := s.eng.state = .stopped → s.eng.pendingTick = false

/-- How many taps the tap-read stage has passed. -/
def tapsPassed : Stage → Nat
  | .tapReads n => n
  | _ => 0

/-- What an access of the engine says of the place the service stands at: a line write comes before the
tap reads, a tap read at or after the next tap. -/
def accessAtStage (line : Bool) (tap : Nat) (st : Stage) : Bool :=
  if line then decide (tapsPassed st = 0) else decide (tapsPassed st ≤ tap)

/-- The engine claim fits the service's place. -/
def claimFits (st : Stage) (c : EngineClaim) : Bool :=
  match c.access with
  | .lineWrite _ _ _ => accessAtStage true 0 st
  | .tapRead t _ => accessAtStage false t.val st

/-- The engine's own operation in flight fits the service's place. -/
def opFits (st : Stage) (o : PortOp) : Bool :=
  match o with
  | ⟨.lineWrite _, true⟩ => accessAtStage true 0 st
  | ⟨.tapRead t _, true⟩ => accessAtStage false t.val st
  | _ => true

/-- The engine has at most one access outstanding, none outside a service, and each belongs to the stage the
service stands at (R52); every accumulator is bounded by 2^38 for each tap passed (R35, R36). -/
def EngineSound (s : State) : Prop :=
  (inService s = false → s.eng.stage = .rest ∧ engineWaits s.port = false) ∧
    (inService s = true → s.eng.stage ≠ .rest) ∧
    (engineOpInFlight s.port = true → s.port.op.any PortOp.owned = true → s.port.engineClaim = none) ∧
    (∀ c ∈ s.port.engineClaim, claimFits s.eng.stage c = true) ∧
    (∀ o ∈ s.port.op, opFits s.eng.stage o = true) ∧
    tapsPassed s.eng.stage ≤ 128 ∧
    ∀ b : Fin 16, (s.eng.acc[b]).natAbs ≤ tapsPassed s.eng.stage * 2 ^ 38

/-! ### The Transfer Unit -/

/-- The cells of the unit's own burst, claimed or in flight. -/
def burstCells (p : MemoryPort) : Nat :=
  match p.txClaim, p.op with
  | some c, _ => c.size
  | none, some ⟨.writeBurst _ cs, true⟩ => cs.length
  | none, some ⟨.readBurst _ n, true⟩ => n
  | none, some ⟨.fillBurst _ n _, true⟩ => n
  | none, _ => 0

/-- The cells of the unit's own burst in flight. -/
def flightCells (p : MemoryPort) : Nat :=
  match p.op with
  | some ⟨.writeBurst _ cs, true⟩ => cs.length
  | some ⟨.readBurst _ n, true⟩ => n
  | some ⟨.fillBurst _ n _, true⟩ => n
  | _ => 0

/-- The unit's own burst in flight is of the transfer's kind. -/
def flightOfKind (k : TransferKind) (o : PortOp) : Bool :=
  match o with
  | ⟨.writeBurst _ _, true⟩ => decide (k = .write)
  | ⟨.readBurst _ _, true⟩ => decide (k = .read)
  | ⟨.fillBurst _ _ v, true⟩ => decide (k = .fill v)
  | _ => true

/-- The cells of a moving transfer are accounted for: cells accepted are written, in flight or in the FIFO
(R104, R109); cells fetched are delivered or in the FIFO (R107, R112); nothing exceeds count. -/
def Transfer.accounted (t : Transfer) (fifo : Nat) (p : MemoryPort) : Bool :=
  match t.kind with
  | .write =>
    decide (t.accepted = t.written + flightCells p + fifo) && decide (t.accepted ≤ t.count) &&
      decide (t.written < t.count) && decide (p.txClaim.all fun c => decide (c.size ≤ fifo))
  | .read =>
    decide (t.fetched = t.delivered + fifo) && decide (t.fetched + burstCells p ≤ t.count) &&
      decide (t.delivered < t.count) && decide (fifo + burstCells p ≤ 64)
  | .fill _ =>
    decide (t.written + burstCells p ≤ t.count) && decide (t.written < t.count) && decide (fifo = 0)

/-- A transfer that has ended leaves an empty FIFO and no claim, and its cells done stay within count: those
delivered of a read, those written and still in flight of a write or fill (R97, R104, R117). -/
def Transfer.ended (t : Transfer) (fifo : Nat) (p : MemoryPort) : Bool :=
  decide (fifo = 0) && p.txClaim.isNone &&
    match t.kind with
    | .read => decide (t.delivered ≤ t.count)
    | .write => decide (t.written + flightCells p ≤ t.count)
    | .fill _ => decide (t.written + flightCells p ≤ t.count)

/-- A queued transfer passed the count check of R70. -/
def countChecked : Request → Bool
  | .blockWrite _ n => decide (1 ≤ n.toNat) && decide (n.toNat ≤ 65536)
  | .blockRead _ n => decide (1 ≤ n.toNat) && decide (n.toNat ≤ 65536)
  | .blockFill _ n _ => decide (1 ≤ n.toNat) && decide (n.toNat ≤ 65536)
  | _ => true

/-- The Transfer Unit's books (R103, R104, R108, R111, R117): the FIFO holds at most 64 cells; in IDLE it is
empty with no claim and no burst of its own in flight; a claim and a burst in flight never stand together;
the cells of a transfer are accounted for. -/
def TransferSound (s : State) : Prop :=
  s.tx.fifo.length ≤ 64 ∧
    (s.tx.active = none → s.tx.fifo = [] ∧ s.port.txClaim = none ∧ ownBurstInFlight s.port = false) ∧
    (s.port.txClaim.isSome = true → burstInFlight s.port = false) ∧
    (∀ c ∈ s.port.txClaim, 1 ≤ c.size) ∧
    (∀ t ∈ s.tx.active, (∀ c ∈ s.port.txClaim, c.kind = t.kind) ∧
      (∀ o ∈ s.port.op, flightOfKind t.kind o = true) ∧
      (if t.final.isNone then t.accounted s.tx.fifo.length s.port else t.ended s.tx.fifo.length s.port) = true) ∧
    ∀ e ∈ s.req.queue, countChecked e.request = true

/-- A burst is claimed at the first moment its condition holds (R108, R111, R114), and the starvation timer
runs exactly while the three conditions of R115 hold. -/
def TransferPrompt (s : State) : Prop :=
  (s.port.txClaim = none → burstInFlight s.port = false → nextBurst s.tx = none) ∧
    s.tx.timer.isSome = timerRuns s.tx s.port

/-! ### Refresh, RST# and the mark state -/

/-- The Refresh Timer runs exactly while refresh is enabled, REFINT is never 0, and a disabled refresh owes
nothing (R125, R128, R129). -/
def RefreshSound (s : State) : Prop :=
  s.port.refreshTimer.isSome = s.port.refreshOn ∧ s.port.refint ≠ 0 ∧
    (s.port.refreshOn = false → s.port.debt = 0)

/-- While RST# is asserted every block holds its device reset state (R145). -/
def HeldAtReset (s : State) : Prop :=
  s.held = true →
    s.lines = State.reset.lines ∧ s.taps = State.reset.taps ∧ s.glideCount = 0 ∧ s.eng = Engine.reset ∧
      s.req = RequestUnit.reset ∧ s.ring = [] ∧ s.tx = TransferUnit.reset ∧ s.port = MemoryPort.reset ∧
      s.host = HostPort.reset ∧ s.ev = EventUnit.reset

/-- A mark state stands exactly while a MARK is the head (R79), and an ARMED MARK is armed on the frame of the
service in progress (R80). -/
def MarkSound (s : State) : Prop :=
  s.req.mark.isSome = s.req.queue.head?.any (fun e => decide (e.request = .mark)) ∧
    (∀ n, s.req.mark = some (.armed n) → inService s = true ∧ n = s.eng.fseq) ∧
    (s.req.mark = some .unarmed → s.eng.state ≠ .stopped)

/-! ### Terms of the claims -/

/-- The command that is a tick of the given source (R44). -/
def tickCommand : TickSource → Instr
  | .fck => .tickArrival
  | .step => .step

/-- Input slot `i` is stale: a RUNNING line takes it and its fresh flag is clear (R54). -/
def SlotStale (s : State) (i : Fin 16) : Prop :=
  (∃ l : Fin 32, ∃ r ∈ s.lines[l], r.mode = .running ∧ r.source = .input i) ∧
    s.host.fresh.getLsbD i.val = false

/-- `c` begins a service at `s`: a tick of the selected source in WAITING with pending 0, or a pending start
(R53). -/
def Begins (c : Instr) (s : State) : Prop :=
  s.held = false ∧ s.eng.state = .waiting ∧
    ((c = tickCommand s.eng.tickSource ∧ s.eng.pendingTick = false) ∨
      (c = .pendingStart ∧ s.eng.pendingTick = true))

/-- At the place `st` of a service, the turn of tap `u` in the glide stage is still to come (R52). -/
def glideAhead (st : Stage) (u : Nat) : Bool :=
  match st with
  | .glides n => decide (n ≤ u)
  | .lineWrites _ => false
  | .tapReads _ => false
  | .rest => false

/-- At the place `st` of a service, the turn of line `k` in the line-write stage is still to come (R52). -/
def lineAhead (st : Stage) (k : Nat) : Bool :=
  match st with
  | .glides _ => true
  | .lineWrites n => decide (n ≤ k)
  | .tapReads _ => false
  | .rest => false

/-- At the place `st` of a service, the turn of tap `u` in the tap-read stage is still to come (R52). -/
def tapAhead (st : Stage) (u : Nat) : Bool :=
  match st with
  | .glides _ => true
  | .lineWrites _ => true
  | .tapReads n => decide (n ≤ u)
  | .rest => false

/-- A turn of the glide stage is left to tap `u`: it is gliding, and the stage has not passed it (R56). -/
def glideLeft (s : State) (u : Fin 128) : Bool := (s.taps[u]).any TapRec.gliding && glideAhead s.eng.stage u.val

/-- A turn of the line-write stage is left to line `k`: it is RUNNING or FROZEN, and the stage has not passed
it (R57). -/
def lineLeft (s : State) (k : Fin 32) : Bool :=
  (s.lines[k]).any (fun r => decide (r.mode ≠ .idle)) && lineAhead s.eng.stage k.val

/-- A turn of the tap-read stage is left to tap `u`: it is attached, and the stage has not passed it (R58). -/
def tapLeft (s : State) (u : Fin 128) : Bool := (s.taps[u]).isSome && tapAhead s.eng.stage u.val

/-- The engine claim, promoted or not, that no urgent refresh precedes (R123). -/
def engineIsFirst (p : MemoryPort) (promoted : Bool) : Prop :=
  p.op = none ∧ (promoted = true ∨ ¬ (p.refreshOn = true ∧ 6 ≤ p.debt))

/-- Refresh stands and no engine claim precedes it: none stands, or refresh is urgent and none is promoted
(R122, R123). -/
def refreshIsFirst (p : MemoryPort) : Prop :=
  p.op = none ∧ p.refreshOn = true ∧ 1 ≤ p.debt ∧
    (p.engineClaim = none ∨ (6 ≤ p.debt ∧ ∀ c ∈ p.engineClaim, c.promoted = false))

/-- No engine claim and no refresh claim stands, and the port is free (R123). -/
def transferIsFirst (p : MemoryPort) : Prop :=
  p.op = none ∧ p.engineClaim = none ∧ ¬ (p.refreshOn = true ∧ 1 ≤ p.debt)

/-- The claim condition of the transfer's kind holds, and `c` is the burst it claims: its first cell and size
(R108, R111, R114). -/
def BurstDue (tx : TransferUnit) (c : BurstClaim) : Prop :=
  ∃ x, tx.active = some x ∧ x.final = none ∧ c.kind = x.kind ∧
    match x.kind with
    | .write => x.written < x.count ∧ c.address = x.address + x.written ∧
        ((16 ≤ tx.fifo.length ∧ c.size = 16) ∨
          (x.accepted = x.count ∧ 1 ≤ tx.fifo.length ∧ tx.fifo.length < 16 ∧ c.size = tx.fifo.length))
    | .read => x.fetched < x.count ∧ c.address = x.address + x.fetched ∧
        c.size = min 16 (x.count - x.fetched) ∧ tx.fifo.length + c.size ≤ 64
    | .fill _ => x.written < x.count ∧ c.address = x.address + x.written ∧
        c.size = min 16 (x.count - x.written)

/-- The transfer claim after an event that leads from `s` to `t`: one that stood still stands, and with no
burst claimed or in flight the due one is claimed (R108, R111, R114; a burst that a soft reset disowned counts
as in flight, log 10). -/
def ClaimFollows (s t : State) : Prop :=
  ∀ c, t.port.txClaim = some c ↔
    s.port.txClaim = some c ∨ (s.port.txClaim = none ∧ burstInFlight t.port = false ∧ BurstDue t.tx c)

/-- The three conditions under which the starvation timer runs (R115; a burst that a soft reset disowned counts
as in flight, log 10). -/
def HostAwaited (s : State) : Prop :=
  (∃ x, s.tx.active = some x ∧ x.final = none ∧ (x.kind = .write ∨ x.kind = .read)) ∧
    s.port.txClaim = none ∧ burstInFlight s.port = false ∧ s.port.txtimeout ≠ 0

/-- The full period of the starvation timer in periods of TCLK (R115). -/
def fullPeriod (s : State) : Nat := 64 * s.port.txtimeout.toNat

/-- The range checks of R70 by kind code, on the whole halfwords and pairs of the staging area. -/
def fieldsAdmitted (code : Nat) (a : Vector Half 6) : Prop :=
  let pair := fun (lo hi : Half) => lo.toNat + 65536 * hi.toNat
  match code with
  | 1 => a[0].toNat ≤ 31 ∧ 16 ≤ pair a[3] a[4] ∧ pair a[3] a[4] ≤ 1048576 ∧
      a[5].toNat / 256 ≤ 1 ∧ a[5].toNat % 256 ≤ 15
  | 2 => a[0].toNat ≤ 31
  | 3 => a[0].toNat ≤ 31 ∧ a[1].toNat ≤ 1
  | 4 => a[0].toNat ≤ 31
  | 5 => a[0].toNat ≤ 31
  | 6 => a[0].toNat ≤ 127 ∧ a[1].toNat ≤ 31 ∧ a[4].toNat ≤ 15
  | 7 => a[0].toNat ≤ 127
  | 8 => a[0].toNat ≤ 127 ∧ a[3].toNat ≤ 255
  | 9 => a[0].toNat ≤ 127 ∧ a[2].toNat ≤ 15
  | 10 => True
  | 11 => 1 ≤ pair a[2] a[3] ∧ pair a[2] a[3] ≤ 65536
  | 12 => 1 ≤ pair a[2] a[3] ∧ pair a[2] a[3] ≤ 65536
  | 13 => 1 ≤ pair a[2] a[3] ∧ pair a[2] a[3] ≤ 65536
  | _ => False

/-- The request carries the arguments that stand in the staging halfwords, by the layout of R68. -/
def carriesArgs (a : Vector Half 6) : Request → Prop
  | .lineDefine l base n src => l.val = a[0].toNat ∧ base.toNat = a[1].toNat + 65536 * a[2].toNat ∧
      n.toNat = a[3].toNat + 65536 * a[4].toNat ∧
      a[5].toNat = (match src with | .input i => i.val | .bus b => 256 + b.val)
  | .lineRelease l => l.val = a[0].toNat
  | .lineStart l m => l.val = a[0].toNat ∧ a[1].toNat = (match m with | .fresh => 0 | .keep => 1)
  | .lineFreeze l => l.val = a[0].toNat
  | .lineHalt l => l.val = a[0].toNat
  | .tapAttach t l delay b g => t.val = a[0].toNat ∧ l.val = a[1].toNat ∧
      delay.toNat = a[2].toNat + 65536 * a[3].toNat ∧ b.val = a[4].toNat ∧ g = a[5]
  | .tapDetach t => t.val = a[0].toNat
  | .tapRetarget t target k => t.val = a[0].toNat ∧
      target.toNat = a[1].toNat + 65536 * a[2].toNat ∧ k = a[3].toNat
  | .tapGain t g b => t.val = a[0].toNat ∧ g = a[1] ∧ b.val = a[2].toNat
  | .mark => True
  | .blockWrite address n => address.toNat = a[0].toNat + 65536 * a[1].toNat ∧
      n.toNat = a[2].toNat + 65536 * a[3].toNat
  | .blockRead address n => address.toNat = a[0].toNat + 65536 * a[1].toNat ∧
      n.toNat = a[2].toNat + 65536 * a[3].toNat
  | .blockFill address n v => address.toNat = a[0].toNat + 65536 * a[1].toNat ∧
      n.toNat = a[2].toNat + 65536 * a[3].toNat ∧ v.toNat = a[4].toNat + 65536 * (a[5].toNat % 256)

/-- The events that take the head of the queue, and the Transfer Unit's completion (R73, R91). -/
def takesRingSlot (c : Instr) : Bool :=
  c ∈ [.cancelledHeadCompletion, .lineDefine, .lineRelease, .lineStart, .lineFreeze, .lineHalt, .tapAttach,
    .tapDetach, .tapRetarget, .tapGain, .mark, .blockWrite, .blockRead, .blockFill, .transferCompletion]

/-- The application events of the nine table requests (R76). -/
def isApplication (c : Instr) : Bool :=
  c ∈ [.lineDefine, .lineRelease, .lineStart, .lineFreeze, .lineHalt, .tapAttach, .tapDetach, .tapRetarget,
    .tapGain]

/-- The event that takes a head with a clear mark (R73, R76, R82, R83). -/
def headEvent : Request → Instr
  | .lineDefine .. => .lineDefine
  | .lineRelease .. => .lineRelease
  | .lineStart .. => .lineStart
  | .lineFreeze .. => .lineFreeze
  | .lineHalt .. => .lineHalt
  | .tapAttach .. => .tapAttach
  | .tapDetach .. => .tapDetach
  | .tapRetarget .. => .tapRetarget
  | .tapGain .. => .tapGain
  | .mark => .mark
  | .blockWrite .. => .blockWrite
  | .blockRead .. => .blockRead
  | .blockFill .. => .blockFill

/-- The grants of the port (R121). -/
def isGrant (c : Instr) : Bool :=
  c ∈ [.lineWriteGrant, .tapReadGrant, .writeBurstGrant, .readBurstGrant, .fillBurstGrant, .refreshGrant]

/-- The completion of an operation (R121). -/
def completionOf : DramOp → Instr
  | .lineWrite _ => .lineWriteCompletion
  | .tapRead _ _ => .tapReadCompletion
  | .writeBurst _ _ => .writeBurstCompletion
  | .readBurst _ _ => .readBurstCompletion
  | .fillBurst _ _ _ => .fillBurstCompletion
  | .refresh => .refreshCompletion

/-! ### The count of requests -/

/-- The command is a SUBMIT, by its row or as a write of the whole location 17h (R69, log 11). -/
def isSubmission (c : Instr) : Prop := (∃ v, c = .submit v) ∨ ∃ v, c = .registerWrite 0x17 v

/-- The command is a POP, by its row or as a write of the whole location 1Dh (R94, log 11). -/
def isPop (c : Instr) : Prop := (∃ v, c = .pop v) ∨ ∃ v, c = .registerWrite 0x1D v

/-- The command resets the part: a device reset, or a soft reset by its row or as a CTRL write that carries
SOFT_RESET (R144, R145, log 11). -/
def isReset (c : Instr) : Prop :=
  c = .deviceReset ∨ c = .softReset ∨ ∃ v : Half, v.getLsbD 3 = true ∧ c = .registerWrite 0x00 v

/-- Accepted requests not yet popped by the host: in the queue, active in the Transfer Unit, or recorded in
the ring (R86). -/
def outstanding (s : State) : Nat :=
  s.req.queue.length + (if s.tx.active.isSome then 1 else 0) + s.ring.length

end Sys2Proof.Machine
end

