-- ==== Sys2Proof/Certificates/Slice0/Obligations.lean ====
section
/-! DEFINITION. The statements for the provers. Each docstring names the rules of spec/ it formalises, and the
log entry where a clause rests on a choice of the model. -/

open Sys2Proof Sys2Proof.Machine

/-! ### The queue, TCLK and RST# -/

/-- A step takes the command at the front of the queue and runs it with the queue's rest (log 1). -/
def Obligations.StepRunsFrontCommand : Prop :=
  ∀ (c : Instr) (rest : List Instr) (s : State), s.pending = c :: rest →
    step s = exec c { s with pending := rest }

/-- On an empty queue one period of TCLK passes: each running timer counts it, and the timer whose last period
it was expires (R115, R125); a timer that does not run stays stopped, and while RST# is asserted neither counts.
That a step on an empty queue is a TCLK period, and that refresh comes first when both expire in it, is the
model's choice (log 3); a timer of 0 periods left, which no run reaches, expires like one of 1. -/
def Obligations.EmptyQueuePassesOneTclkPeriod : Prop :=
  ∀ s : State, s.pending = [] →
    (s.held = true → step s = .next s) ∧
    (s.held = false →
      ((∀ n ∈ s.port.refreshTimer, 2 ≤ n) → (∀ m ∈ s.tx.timer, 2 ≤ m) →
        step s = .next { s with
          port := { s.port with refreshTimer := s.port.refreshTimer.map fun n => n - 1 }
          tx := { s.tx with timer := s.tx.timer.map fun m => m - 1 } }) ∧
      (∀ n, s.port.refreshTimer = some n → n ≤ 1 → (∀ m ∈ s.tx.timer, 2 ≤ m) →
        ∃ t, exec .refreshTimerExpiry s = .next t ∧
          step s = .next { t with tx := { t.tx with timer := s.tx.timer.map fun m => m - 1 } }) ∧
      (∀ m, (∀ n ∈ s.port.refreshTimer, 2 ≤ n) → s.tx.timer = some m → m ≤ 1 →
        step s = exec .starvationTimerExpiry { s with
          port := { s.port with refreshTimer := s.port.refreshTimer.map fun n => n - 1 } }) ∧
      (∀ n m, s.port.refreshTimer = some n → n ≤ 1 → s.tx.timer = some m → m ≤ 1 →
        ∃ t, exec .refreshTimerExpiry s = .next t ∧ step s = exec .starvationTimerExpiry t))

/-- No command stops the machine, and none touches the queue of waiting commands (log 1, log 2). -/
def Obligations.EveryCommandAnswersNext : Prop :=
  ∀ (c : Instr) (s : State), ∃ t, exec c s = .next t ∧ t.pending = s.pending

/-- While RST# is asserted a read returns 0 and every other access, tick and event changes nothing, the
device reset itself, its release and the loss of the DRAM contents apart (R145; what a read returns is in
`host.dataOut` by log 6, and log 14 lets the contents be lost while held). -/
def Obligations.HeldPartIgnoresCommands : Prop :=
  ∀ (c : Instr) (s : State), s.held = true →
    ((c = .dataLo ∨ ∃ off, c = .lowHalfRead off) →
      exec c s = .next { s with host := { s.host with dataOut := 0 } }) ∧
    (c ≠ .dataLo → (∀ off, c ≠ .lowHalfRead off) → c ≠ .deviceReset → c ≠ .rstRelease →
      c ≠ .dramContentsLost → exec c s = .next s)

/-! ### Ticks, go and stop -/

/-- A tick of the selected source by engine state and pending tick, and a tick of the other source, which is
ignored (R44, R48, R49). -/
def Obligations.TickByEngineState : Prop :=
  ∀ s : State, s.held = false →
    (∀ src, src ≠ s.eng.tickSource → exec (tickCommand src) s = .next s) ∧
    (s.eng.state = .stopped ∨ s.eng.state = .stopping →
      exec (tickCommand s.eng.tickSource) s = .next s) ∧
    (s.eng.state = .waiting ∨ s.eng.state = .servicing → s.eng.pendingTick = true →
      exec (tickCommand s.eng.tickSource) s = .next { s with
        eng := { s.eng with
          overrun := if s.eng.overrun = 65535#16 then 65535#16 else s.eng.overrun + 1 }
        ev := raiseFlag .overrun s.ev }) ∧
    (s.eng.state = .servicing → s.eng.pendingTick = false →
      exec (tickCommand s.eng.tickSource) s = .next { s with eng := { s.eng with pendingTick := true } })

/-- The begin of a service, at a tick in WAITING or a pending start: FSEQ, snapshot, stale mask, fresh flags,
INPUT_STALE, the arming of a MARK, and nothing else (R50, R53, R54, R80). -/
def Obligations.ServiceBegins : Prop :=
  ∀ (c : Instr) (s : State), Begins c s →
    ∃ t, exec c s = .next t ∧
      t = { s with
        eng := { s.eng with
          state := .servicing, pendingTick := false, fseq := s.eng.fseq + 1, snapshot := s.host.slots,
          stale := t.eng.stale, stage := .glides 0 }
        req := { s.req with
          mark := if s.req.mark = some .unarmed then some (.armed (s.eng.fseq + 1)) else s.req.mark }
        host := { s.host with fresh := 0 }
        ev := t.ev } ∧
      (∀ i : Fin 16, t.eng.stale.getLsbD i.val = true ↔
        s.eng.stale.getLsbD i.val = true ∨ SlotStale s i) ∧
      ((∃ i, SlotStale s i) → t.ev = raiseFlag .inputStale s.ev) ∧
      ((∀ i, ¬ SlotStale s i) → t.ev = s.ev)

/-- ENGINE_GO is taken only in STOPPED (R45); ENGINE_STOP acts by the engine state and makes an UNARMED MARK
due when the engine reaches STOPPED (R46, R81); the tick-source field: 0 and 3 name no source, a field naming
the source in force changes nothing, a change is taken in STOPPED and refused with CONFIG_BUSY elsewhere (R44,
R143). -/
def Obligations.GoStopAndSourceByEngineState : Prop :=
  ∀ s : State, s.held = false →
    exec .engineGo s = .next (if s.eng.state = .stopped then
      { s with eng := { s.eng with state := .waiting, pendingTick := false } } else s) ∧
    exec .engineStop s = .next (match s.eng.state with
      | .waiting => { s with
          eng := { s.eng with state := .stopped, pendingTick := false }
          req := { s.req with
            mark := if s.req.mark = some .unarmed then some .dueStopped else s.req.mark } }
      | .servicing => { s with eng := { s.eng with state := .stopping } }
      | .stopped => s
      | .stopping => s) ∧
    exec (.tickSource 0) s = .next s ∧ exec (.tickSource 3) s = .next s ∧
    ∀ (field : BitVec 2) (src : TickSource), (field = 1 ∧ src = .fck) ∨ (field = 2 ∧ src = .step) →
      exec (.tickSource field) s = .next (if s.eng.tickSource = src then s
        else if s.eng.state = .stopped then { s with eng := { s.eng with tickSource := src } }
        else hostError .configBusy s)

/-- One CTRL write takes SOFT_RESET alone, or the tick-source field, ENGINE_STOP, ENGINE_GO and STEP in this
order, each seeing the engine as the parts before it left it (R47). -/
def Obligations.CtrlWriteTakesPartsInOrder : Prop :=
  ∀ (v : Half) (s : State), s.held = false →
    (v.getLsbD 3 = true → exec (.registerWrite 0 v) s = exec .softReset s) ∧
    (v.getLsbD 3 = false → ∃ s1 s2 s3,
      exec (.tickSource (v.extractLsb' 8 2)) s = .next s1 ∧
      (if v.getLsbD 1 then exec .engineStop s1 else .next s1) = .next s2 ∧
      (if v.getLsbD 0 then exec .engineGo s2 else .next s2) = .next s3 ∧
      exec (.registerWrite 0 v) s = (if v.getLsbD 2 then exec .step s3 else .next s3))

/-! ### The stages of a service -/

/-- The glide stage moves the next gliding tap toward its target by its step, or to it at once for step 0;
STEADY on arrival, with the fall of the glide count and GLIDES_SETTLED at 0; with no gliding tap left the
command changes nothing (R31, R32, R33, R56; that a passed-over item takes no step is the model's, log 12). -/
def Obligations.GlideStageMovesNextTap : Prop :=
  ∀ (s : State) (n : Nat), s.held = false → inService s = true → s.eng.stage = .glides n →
    (∀ (t : Fin 128) (r : TapRec), n ≤ t.val → s.taps[t] = some r → r.gliding = true →
      (∀ u : Fin 128, n ≤ u.val → u < t → ∀ q ∈ s.taps[u], q.gliding = false) →
      let c := if r.step = 0 then r.target
        else if r.current ≤ r.target then min (r.current + r.step) r.target
        else max (r.current - r.step) r.target
      exec .glideStage s = .next { s with
        taps := s.taps.set t (some { r with current := c, gliding := decide (c ≠ r.target) })
        glideCount := if c = r.target then s.glideCount - 1 else s.glideCount
        eng := { s.eng with stage := .glides (t.val + 1) }
        ev := if c = r.target ∧ s.glideCount = 1 then raiseFlag .glidesSettled s.ev else s.ev }) ∧
    ((∀ u : Fin 128, n ≤ u.val → ∀ q ∈ s.taps[u], q.gliding = false) → exec .glideStage s = .next s)

/-- A glide at step k not 0 reaches its target after m services exactly when m times k is at least the
distance; a glide at step 0 takes one service (R33). -/
def Obligations.GlideLastsDistanceOverStep : Prop :=
  ∀ r : TapRec,
    (r.step ≠ 0 → ∀ m, (TapRec.glided^[m] r).current = r.target ↔
      (r.target - r.current) + (r.current - r.target) ≤ m * r.step) ∧
    (r.step = 0 → r.glided.current = r.target ∧ r.glided.gliding = false)

/-- The turns of the line-write and tap-read stages, at whatever place of the service they come. When no
gliding tap is left, the first line left: a RUNNING line's write is claimed at base + head with the value of
its source, a FROZEN line's loop advances (R4, R5, R9, R10, R57). When no line is left either, the first tap
left: a tap with a sample claims its read, a tap without one is done with (R7, R36, R58). Each stage finishes
before the next begins, and the engine waits for its access: with a turn of an earlier stage left, with an
access outstanding, with no turn of its own stage left or with no service in progress, the command of a stage
changes nothing (R52). That passed-over items take no step is log 12, and that a claim waits for the end of an
engine operation which a soft reset disowned is log 10. -/
def Obligations.StageTurnsClaimOrGoOn : Prop :=
  (∀ s : State, s.held = false → inService s = true → engineWaits s.port = false →
    (∀ u, glideLeft s u = false) →
    (∀ (l : Fin 32) (r : LineRec), s.lines[l] = some r → lineLeft s l = true →
      (∀ k < l, lineLeft s k = false) →
      (r.mode = .running →
        exec .lineWriteStage s = .next (if engineOpInFlight s.port = true then s
          else { s with port := { s.port with
            engineClaim := some ⟨.lineWrite l (r.base + r.head) (match r.source with
              | .input i => s.eng.snapshot[i]
              | .bus b => s.eng.bank.values[b]), false⟩ } })) ∧
      (∀ loop, r.mode = .frozen loop →
        exec .lineWriteStage s = .next { s with
          lines := s.lines.set l (some { r with mode := .frozen ((loop + 1) % r.length) })
          eng := { s.eng with stage := .lineWrites (l.val + 1) } })) ∧
    ((∀ k, lineLeft s k = false) →
      ∀ (t : Fin 128) (r : TapRec) (lr : LineRec), s.taps[t] = some r → s.lines[r.line] = some lr →
        tapLeft s t = true → (∀ u < t, tapLeft s u = false) →
        (∀ cell, lr.tapCell r.current = some cell →
          exec .tapReadStage s = .next (if engineOpInFlight s.port = true then s
            else { s with port := { s.port with engineClaim := some ⟨.tapRead t cell, false⟩ } })) ∧
        (lr.tapCell r.current = none →
          exec .tapReadStage s = .next { s with
            eng := { s.eng with stage := .tapReads (t.val + 1) } }))) ∧
  ∀ s : State,
    ((∃ u, glideLeft s u = true) → exec .lineWriteStage s = .next s ∧ exec .tapReadStage s = .next s ∧
      exec .publish s = .next s) ∧
    ((∃ k, lineLeft s k = true) → exec .tapReadStage s = .next s ∧ exec .publish s = .next s) ∧
    ((∃ u, tapLeft s u = true) → exec .publish s = .next s) ∧
    (engineWaits s.port = true → exec .lineWriteStage s = .next s ∧ exec .tapReadStage s = .next s ∧
      exec .publish s = .next s) ∧
    ((∀ u, glideLeft s u = false) → exec .glideStage s = .next s) ∧
    ((∀ k, lineLeft s k = false) → exec .lineWriteStage s = .next s) ∧
    ((∀ u, tapLeft s u = false) → exec .tapReadStage s = .next s) ∧
    (inService s = false → ∀ c, c = .glideStage ∨ c = .lineWriteStage ∨ c = .tapReadStage ∨ c = .publish →
      exec c s = .next s)

/-- The cell a tap reads: at delay d behind the newest sample of a RUNNING line, at the effective age of a
FROZEN one, only below fill, and none on an IDLE line (R6, R7, R8). -/
def Obligations.TapReadsBehindHead : Prop :=
  ∀ (r : LineRec) (d : Nat), r.head < r.length → d < r.length →
    (r.mode = .running → r.tapCell d =
      if d < r.fill then some (r.base + (r.head + r.length - 1 - d) % r.length) else none) ∧
    (∀ loop, r.mode = .frozen loop → loop < r.length →
      let e := (d + r.length - loop) % r.length
      r.tapCell d = if e < r.fill then some (r.base + (r.head + r.length - 1 - e) % r.length) else none) ∧
    (r.mode = .idle → r.tapCell d = none)

/-- The publish, once no turn of the service is left, whatever the tables hold: each accumulator divided by
16,384 and rounded down, limited to the cell range, with its saturation flag, into the bank with the service's
FSEQ; the events; the accumulators cleared; the MARK; and the engine's way out (R38, R50, R52, R59, R80, R81;
that passed-over items take no step is log 12). -/
def Obligations.PublishEndsService : Prop :=
  ∀ s : State, s.held = false → inService s = true → s.eng.stage ≠ .rest → engineWaits s.port = false →
    (∀ u, glideLeft s u = false) → (∀ k, lineLeft s k = false) → (∀ u, tapLeft s u = false) →
    ∃ t, exec .publish s = .next t ∧
      t = { s with
        eng := { s.eng with
          state := if s.eng.state = .stopping then .stopped else .waiting
          pendingTick := if s.eng.state = .stopping then false else s.eng.pendingTick
          acc := Vector.replicate 16 0, bank := t.eng.bank, stage := .rest }
        req := { s.req with mark :=
          if s.req.mark = some (.armed s.eng.fseq) then some (.dueOk s.eng.fseq)
          else if s.eng.state = .stopping ∧ s.req.mark = some .unarmed then some .dueStopped
          else s.req.mark }
        ev := t.ev } ∧
      t.eng.bank.frame = s.eng.fseq ∧
      (∀ b : Fin 16, (t.eng.bank.values[b]).toInt =
        max (-8388608) (min 8388607 (Int.fdiv s.eng.acc[b] 16384))) ∧
      (∀ b : Fin 16, t.eng.bank.sat.getLsbD b.val = true ↔
        Int.fdiv s.eng.acc[b] 16384 < -8388608 ∨ 8388607 < Int.fdiv s.eng.acc[b] 16384) ∧
      (t.eng.bank.sat = 0 → t.ev = raiseFlag .frameDone s.ev) ∧
      (t.eng.bank.sat ≠ 0 → t.ev = raiseFlag .saturation (raiseFlag .frameDone s.ev))

/-! ### The Memory Port -/

/-- The grant of a line write stores the value in its cell and no other, and advances head and fill (R4, R57;
a cell beyond the fitted device keeps nothing, log 8). -/
def Obligations.LineWriteGrantStoresCell : Prop :=
  ∀ (s : State) (l : Fin 32) (r : LineRec) (cell : Nat) (v : Sample) (p : Bool), s.held = false →
    s.port.engineClaim = some ⟨.lineWrite l cell v, p⟩ → engineIsFirst s.port p → s.lines[l] = some r →
    ∃ t, exec .lineWriteGrant s = .next t ∧
      t = { s with
        lines := s.lines.set l (some { r with
          head := (r.head + 1) % r.length, fill := if r.fill < r.length then r.fill + 1 else r.fill })
        dram := t.dram
        port := { s.port with engineClaim := none, op := some ⟨.lineWrite l, true⟩ } } ∧
      (∀ k a, a ≠ cell → t.dram.valueAt k a = s.dram.valueAt k a) ∧
      (∀ k, cell < s.dram.fitted → t.dram.valueAt k cell = v)

/-- The completion of an engine access frees the port: the engine goes on to its next line, or adds the tap's
exact product into its bus and goes on to the next tap; an access that a soft reset disowned moves nothing in
the engine (R35, R36, R57, R58, R65, R134; `dram.reads` is the model's counter of log 8). -/
def Obligations.EngineAccessCompletes : Prop :=
  ∀ s : State, s.held = false →
    (∀ (l : Fin 32) (owned : Bool), s.port.op = some ⟨.lineWrite l, owned⟩ →
      exec .lineWriteCompletion s = .next { s with
        port := { s.port with op := none }
        eng := { s.eng with stage := if owned then .lineWrites (l.val + 1) else s.eng.stage } }) ∧
    (∀ (t : Fin 128) (cell : Nat) (r : TapRec), s.port.op = some ⟨.tapRead t cell, true⟩ →
      s.taps[t] = some r →
      exec .tapReadCompletion s = .next { s with
        port := { s.port with op := none }
        dram := { s.dram with reads := s.dram.reads + 1 }
        eng := { s.eng with
          acc := s.eng.acc.set r.bus (s.eng.acc[r.bus] + r.gain.toInt * (s.dram.read cell).toInt)
          stage := .tapReads (t.val + 1) } }) ∧
    (∀ (t : Fin 128) (cell : Nat), s.port.op = some ⟨.tapRead t cell, false⟩ →
      exec .tapReadCompletion s = .next { s with
        port := { s.port with op := none }
        dram := { s.dram with reads := s.dram.reads + 1 } })

/-- The arbiter's rank: a promoted engine claim, an urgent refresh, any other engine claim, a normal refresh, a
transfer claim; the granted claim becomes the operation in flight, and the other claimants are granted nothing.
No grant falls while the port is busy, and the grant of a claim that does not stand, is of another kind, or is
not the first in rank changes nothing (R121, R122, R123). The grant of a write burst takes its cells, the
oldest, out of the FIFO, and raises DATA_REQUEST when it takes the FIFO of a WRITING unit from more than 32
cells to 32 or fewer (R109, R110). -/
def Obligations.GrantsFollowRank : Prop :=
  ∀ s : State, s.held = false →
    (∀ c, isGrant c = true → s.port.op.isSome = true → exec c s = .next s) ∧
    (∀ (t : Fin 128) (cell : Nat) (p : Bool), s.port.engineClaim = some ⟨.tapRead t cell, p⟩ →
      engineIsFirst s.port p →
      exec .tapReadGrant s = .next { s with
        port := { s.port with engineClaim := none, op := some ⟨.tapRead t cell, true⟩ } }) ∧
    (∀ a p, s.port.engineClaim = some ⟨a, p⟩ → engineIsFirst s.port p →
      ∀ c, isGrant c = true → c ≠ .lineWriteGrant → c ≠ .tapReadGrant → exec c s = .next s) ∧
    (refreshIsFirst s.port →
      exec .refreshGrant s = .next { s with port := { s.port with op := some ⟨.refresh, true⟩ } } ∧
      ∀ c, isGrant c = true → c ≠ .refreshGrant → exec c s = .next s) ∧
    (transferIsFirst s.port →
      (∀ address size, s.port.txClaim = some ⟨.write, address, size⟩ →
        exec .writeBurstGrant s = .next { s with
          tx := { s.tx with fifo := s.tx.fifo.drop size }
          port := { s.port with
            txClaim := none, op := some ⟨.writeBurst address (s.tx.fifo.take size), true⟩ }
          ev := if isWriting s.tx = true ∧ 32 < s.tx.fifo.length ∧ (s.tx.fifo.drop size).length ≤ 32 then
            raiseFlag .dataRequest s.ev else s.ev }) ∧
      (∀ address size, s.port.txClaim = some ⟨.read, address, size⟩ →
        exec .readBurstGrant s = .next { s with
          port := { s.port with txClaim := none, op := some ⟨.readBurst address size, true⟩ } }) ∧
      (∀ address size v, s.port.txClaim = some ⟨.fill v, address, size⟩ →
        exec .fillBurstGrant s = .next { s with
          port := { s.port with txClaim := none, op := some ⟨.fillBurst address size v, true⟩ } })) ∧
    ((∀ l cell v p, s.port.engineClaim = some ⟨.lineWrite l cell v, p⟩ → ¬ engineIsFirst s.port p) →
      exec .lineWriteGrant s = .next s) ∧
    ((∀ t cell p, s.port.engineClaim = some ⟨.tapRead t cell, p⟩ → ¬ engineIsFirst s.port p) →
      exec .tapReadGrant s = .next s) ∧
    (¬ refreshIsFirst s.port → exec .refreshGrant s = .next s) ∧
    ((∀ address size, s.port.txClaim = some ⟨.write, address, size⟩ → ¬ transferIsFirst s.port) →
      exec .writeBurstGrant s = .next s) ∧
    ((∀ address size, s.port.txClaim = some ⟨.read, address, size⟩ → ¬ transferIsFirst s.port) →
      exec .readBurstGrant s = .next s) ∧
    ((∀ address size v, s.port.txClaim = some ⟨.fill v, address, size⟩ → ¬ transferIsFirst s.port) →
      exec .fillBurstGrant s = .next s)

open Classical in
/-- The completion of a write or fill burst: its cells are in DRAM from its first cell upward and no other cell
changes; written rises, and a transfer still moving ends with OK at count; the next burst is claimed if it is
due, with its first cell and size, and the starvation timer runs by its three conditions, from the full period
if it was stopped (R108, R109, R111, R114, R115; a burst that a soft reset disowned only reaches DRAM, R120,
and a later transfer's claim waits for its end by log 10). -/
def Obligations.StoringBurstCompletes : Prop :=
  ∀ (s : State) (c : Instr) (address : Nat) (cells : List Sample) (owned : Bool), s.held = false →
    ((c = .writeBurstCompletion ∧ s.port.op = some ⟨.writeBurst address cells, owned⟩) ∨
      (c = .fillBurstCompletion ∧ ∃ size v, cells = List.replicate size v ∧
        s.port.op = some ⟨.fillBurst address size v, owned⟩)) →
    ∃ t, exec c s = .next t ∧
      t = { s with
        dram := t.dram
        port := { s.port with op := none, txClaim := t.port.txClaim }
        tx := { s.tx with active := t.tx.active, timer := t.tx.timer } } ∧
      (∀ k a, (a < address ∨ address + cells.length ≤ a) → t.dram.valueAt k a = s.dram.valueAt k a) ∧
      (∀ k i v, cells[i]? = some v → address + i < s.dram.fitted → t.dram.valueAt k (address + i) = v) ∧
      ClaimFollows s t ∧ t.tx.timer = (if HostAwaited t then some (s.tx.timer.getD (fullPeriod s)) else none) ∧
      (owned = false → t.tx.active = s.tx.active) ∧
      (owned = true → t.tx.active = s.tx.active.map fun x => { x with
        written := x.written + cells.length
        final := if x.final = none ∧ x.written + cells.length = x.count then some .ok else x.final })

open Classical in
/-- The completion of a read burst: its cells enter the FIFO in ascending address order and fetched rises,
with DATA_REQUEST when the FIFO count reaches the read threshold; the cells are discarded when the transfer
has ended or a soft reset disowned the burst (R96, R112, R120). The next burst is claimed if it is due, with
its first cell and size, and the starvation timer runs by its three conditions, from the full period if it was
stopped (R108, R111, R114, R115; a later transfer's claim waits for a disowned burst's end by log 10). -/
def Obligations.ReadBurstFillsFifo : Prop :=
  ∀ (s : State) (address size : Nat) (owned : Bool), s.held = false →
    s.port.op = some ⟨.readBurst address size, owned⟩ →
    ∃ t, exec .readBurstCompletion s = .next t ∧
      t = { s with
        dram := { s.dram with reads := s.dram.reads + size }
        port := { s.port with op := none, txClaim := t.port.txClaim }
        tx := { active := t.tx.active, fifo := t.tx.fifo, timer := t.tx.timer }
        ev := t.ev } ∧
      ClaimFollows s t ∧ t.tx.timer = (if HostAwaited t then some (s.tx.timer.getD (fullPeriod s)) else none) ∧
      (∀ x, owned = true → s.tx.active = some x → x.final = none →
        t.tx.active = some { x with fetched := x.fetched + size } ∧
        (∃ cells : List Sample, cells.length = size ∧ t.tx.fifo = s.tx.fifo ++ cells ∧
          ∀ i < size, cells[i]? = some (s.dram.valueAt (s.dram.reads + i) (address + i))) ∧
        t.ev = if s.tx.fifo.length < min 32 (x.count - x.delivered) ∧
            min 32 (x.count - x.delivered) ≤ s.tx.fifo.length + size then
          raiseFlag .dataRequest s.ev else s.ev) ∧
      ((owned = false ∨ s.tx.active = none ∨ ∃ x ∈ s.tx.active, x.final ≠ none) →
        t.tx.active = s.tx.active ∧ t.tx.fifo = s.tx.fifo ∧ t.ev = s.ev)

/-- A refresh completion lowers the debt by one, not below 0, and puts a waiting engine claim in the first
rank (R123, R126); an expiry of the running timer raises the debt below 8, at 8 is late with the late counter
and REFRESH_LATE, and starts the timer again with the period REFINT holds (R125, R127). An expiry of the
starvation timer ends the moving transfer with STALLED and flushes the FIFO (R116). An expiry occurs only while
its timer runs (R115, R125; that the command says the running period is over is log 13). -/
def Obligations.RefreshCompletionAndExpiries : Prop :=
  ∀ s : State, s.held = false →
    (∀ owned, s.port.op = some ⟨.refresh, owned⟩ →
      exec .refreshCompletion s = .next { s with port := { s.port with
        op := none
        debt := s.port.debt - 1
        engineClaim := match s.port.engineClaim with
          | none => none
          | some c => some ⟨c.access, true⟩ } }) ∧
    (∀ left, s.port.refreshTimer = some left →
      exec .refreshTimerExpiry s = .next (if s.port.debt < 8 then
          { s with port := { s.port with
            refreshTimer := some s.port.refint.toNat, debt := s.port.debt + 1 } }
        else
          { s with
            port := { s.port with
              refreshTimer := some s.port.refint.toNat
              late := if s.port.late = 255#8 then 255#8 else s.port.late + 1 }
            ev := raiseFlag .refreshLate s.ev })) ∧
    (s.port.refreshTimer = none → exec .refreshTimerExpiry s = .next s) ∧
    (∀ left x, s.tx.timer = some left → s.tx.active = some x → x.final = none →
      exec .starvationTimerExpiry s = .next { s with
        tx := ⟨some { x with final := some .stalled }, [], none⟩
        port := { s.port with txClaim := none } }) ∧
    (s.tx.timer = none → exec .starvationTimerExpiry s = .next s)

/-- A write of TXTIMEOUT is never refused and stores the whole halfword, which a read returns; it starts the
starvation timer anew with 64 periods of TCLK for each unit when a write or read moves with no burst claimed or
in flight, and stops it for 0 (R132). That no timer starts while a burst which a soft reset disowned is in
flight is the model's choice (log 10), and so is that a read returns the halfword in `host.dataOut` (log 6). -/
def Obligations.TxtimeoutStartsOrStopsTimer : Prop :=
  ∀ (s : State) (v : Half), s.held = false →
    ∃ t, exec (.txtimeout v) s = .next t ∧
      t = { s with
        port := { s.port with txtimeout := v }
        tx := { s.tx with timer :=
          if (isWriting s.tx = true ∨ isReading s.tx = true) ∧ s.port.txClaim = none ∧
              burstInFlight s.port = false ∧ v ≠ 0 then some (v.toNat * 64) else none } } ∧
      exec (.lowHalfRead 0x0D) t = .next { t with host := { t.host with dataOut := v } }

/-! ### The head of the queue -/

/-- The event that takes a head removes it, writes its record at the ring's tail and raises COMPLETION, and a
MARK that becomes the head takes its first mark state (R73, R79, R90). A cancelled head leaves so with a
CANCELLED record without an aux part, in every state of the engine and the Transfer Unit (R74, R75). A DUE MARK
leaves with OK and its frame, or with ENGINE_STOPPED and no aux part, in every engine state; a MARK that is not
DUE stays (R74, R82). -/
def Obligations.CancelledHeadAndMarkLeave : Prop :=
  ∀ (s : State) (h : Entry) (rest : List Entry), s.held = false → s.req.queue = h :: rest →
    s.ring.length < 16 →
    (∀ r : Record, completeHead r s = { s with
      req := { s.req with
        queue := rest
        mark := match rest with
          | [] => none
          | e :: _ => if e.request = .mark then
              some (if s.eng.state = .stopped then .dueStopped else .unarmed) else none }
      ring := s.ring ++ [r]
      ev := raiseFlag .completion s.ev }) ∧
    (h.cancelled = true → exec .cancelledHeadCompletion s =
      .next (completeHead ⟨h.tag, requestKind h.request, .cancelled, .none⟩ s)) ∧
    (h.cancelled = false → h.request = .mark →
      (∀ n, s.req.mark = some (.dueOk n) →
        exec .mark s = .next (completeHead ⟨h.tag, .mark, .ok, .frame n⟩ s)) ∧
      (s.req.mark = some .dueStopped →
        exec .mark s = .next (completeHead ⟨h.tag, .mark, .engineStopped, .none⟩ s)) ∧
      (s.req.mark = some .unarmed → exec .mark s = .next s) ∧
      (∀ n, s.req.mark = some (.armed n) → exec .mark s = .next s))

/-- While the ring holds 16 records no event that takes the head and no transfer completion has an effect
(R73, R91); while the engine is SERVICING or STOPPING no table request is applied (R76); while the Transfer
Unit is not IDLE no transfer request is handed over (R83, R85). A head is taken only by the event of its kind
while its mark is clear, and only by the cancelled-head completion once it is set; on an empty queue no event
takes a head (R73, R75; that an event which is not enabled changes nothing is log 2). -/
def Obligations.HeadWaitsForSlotAndService : Prop :=
  ∀ (c : Instr) (s : State),
    (takesRingSlot c = true → 16 ≤ s.ring.length → exec c s = .next s) ∧
    (isApplication c = true → inService s = true → exec c s = .next s) ∧
    (c = .blockWrite ∨ c = .blockRead ∨ c = .blockFill → s.tx.active ≠ none → exec c s = .next s) ∧
    (takesRingSlot c = true → c ≠ .transferCompletion →
      (s.req.queue = [] → exec c s = .next s) ∧
      ∀ e rest, s.req.queue = e :: rest →
        (e.cancelled = true → c ≠ .cancelledHeadCompletion → exec c s = .next s) ∧
        (e.cancelled = false → c ≠ headEvent e.request → exec c s = .next s))

open Classical in
/-- LINE_DEFINE: WRONG_STATE, RANGE, OVERLAP and TAP_RANGE in this order, each changing no table; otherwise the
line is IDLE with the new base, length and source, head and fill 0, and the record carries OK with the
effective frame (R14, R15, R16). -/
def Obligations.LineDefineChecksThenDefines : Prop :=
  ∀ (s : State) (l : Fin 32) (base n : BitVec 32) (src : Source) (tag : Tag) (rest : List Entry),
    s.held = false → s.req.queue = ⟨.lineDefine l base n src, tag, false⟩ :: rest →
    s.eng.state = .stopped ∨ s.eng.state = .waiting → s.ring.length < 16 →
    exec .lineDefine s = .next (
      if ∃ r ∈ s.lines[l], r.mode ≠ .idle then completeHead ⟨tag, .lineDefine, .wrongState, .none⟩ s
      else if 1048576 * 2 ^ s.port.memsize.toNat < base.toNat + n.toNat then
        completeHead ⟨tag, .lineDefine, .range, .none⟩ s
      else if ∃ k : Fin 32, k ≠ l ∧ ∃ q ∈ s.lines[k],
          rangesOverlap base.toNat n.toNat q.base q.length = true then
        completeHead ⟨tag, .lineDefine, .overlap, .none⟩ s
      else if (s.lines[l]).isSome = true ∧ ∃ t : Fin 128, ∃ r ∈ s.taps[t],
          r.line = l ∧ (n.toNat ≤ r.current ∨ n.toNat ≤ r.target) then
        completeHead ⟨tag, .lineDefine, .tapRange, .none⟩ s
      else completeHead ⟨tag, .lineDefine, .ok, .frame (s.eng.fseq + 1)⟩
        { s with lines := s.lines.set l (some ⟨base.toNat, n.toNat, 0, 0, src, .idle⟩) })

/-- The overlap test: two ranges of at least one cell overlap exactly when they have a cell in common, and
ranges that touch do not overlap (R12). -/
def Obligations.OverlapIsACommonCell : Prop :=
  ∀ b1 n1 b2 n2 : Nat, 1 ≤ n1 → 1 ≤ n2 →
    (rangesOverlap b1 n1 b2 n2 = true ↔
      ∃ c, (b1 ≤ c ∧ c ≤ b1 + n1 - 1) ∧ (b2 ≤ c ∧ c ≤ b2 + n2 - 1)) ∧
    (rangesOverlap b1 n1 b2 n2 = true ↔ b1 ≤ b2 + n2 - 1 ∧ b2 ≤ b1 + n1 - 1) ∧
    rangesOverlap b1 n1 (b1 + n1) n2 = false

open Classical in
/-- LINE_RELEASE, LINE_FREEZE and LINE_HALT: the states that admit them, HAS_TAPS for a line with attached
taps, and the record each leaves; every other line, every tap and the DRAM unchanged (R17, R20, R21). -/
def Obligations.LineReleaseFreezeHalt : Prop :=
  ∀ (s : State) (l : Fin 32) (tag : Tag) (rest : List Entry), s.held = false →
    s.eng.state = .stopped ∨ s.eng.state = .waiting → s.ring.length < 16 →
    (s.req.queue = ⟨.lineRelease l, tag, false⟩ :: rest →
      exec .lineRelease s = .next (
        if ∀ r ∈ s.lines[l], r.mode ≠ .idle then completeHead ⟨tag, .lineRelease, .wrongState, .none⟩ s
        else if ∃ t : Fin 128, ∃ r ∈ s.taps[t], r.line = l then
          completeHead ⟨tag, .lineRelease, .hasTaps, .none⟩ s
        else completeHead ⟨tag, .lineRelease, .ok, .frame (s.eng.fseq + 1)⟩
          { s with lines := s.lines.set l none })) ∧
    (s.req.queue = ⟨.lineFreeze l, tag, false⟩ :: rest →
      exec .lineFreeze s = .next (
        if ∃ r ∈ s.lines[l], r.mode = .running then
          completeHead ⟨tag, .lineFreeze, .ok, .frame (s.eng.fseq + 1)⟩
            { s with lines := s.lines.set l ((s.lines[l]).map fun r => { r with mode := .frozen 0 }) }
        else completeHead ⟨tag, .lineFreeze, .wrongState, .none⟩ s)) ∧
    (s.req.queue = ⟨.lineHalt l, tag, false⟩ :: rest →
      exec .lineHalt s = .next (
        if ∃ r ∈ s.lines[l], r.mode ≠ .idle then
          completeHead ⟨tag, .lineHalt, .ok, .frame (s.eng.fseq + 1)⟩
            { s with lines := s.lines.set l ((s.lines[l]).map fun r => { r with mode := .idle }) }
        else completeHead ⟨tag, .lineHalt, .wrongState, .none⟩ s))

/-- LINE_START: WRONG_STATE outside IDLE and FROZEN, REGION_BUSY against the active transfer in any state but
IDLE, otherwise RUNNING with head and fill by mode and former state (R18, R19). -/
def Obligations.LineStartByModeAndState : Prop :=
  ∀ (s : State) (l : Fin 32) (m : StartMode) (tag : Tag) (rest : List Entry), s.held = false →
    s.req.queue = ⟨.lineStart l m, tag, false⟩ :: rest →
    s.eng.state = .stopped ∨ s.eng.state = .waiting → s.ring.length < 16 →
    (s.lines[l] = none → exec .lineStart s = .next (completeHead ⟨tag, .lineStart, .wrongState, .none⟩ s)) ∧
    (∀ r, s.lines[l] = some r →
      exec .lineStart s = .next (
        if r.mode = .running then completeHead ⟨tag, .lineStart, .wrongState, .none⟩ s
        else if s.tx.active.any (fun x => rangesOverlap r.base r.length x.address x.count) then
          completeHead ⟨tag, .lineStart, .regionBusy, .none⟩ s
        else completeHead ⟨tag, .lineStart, .ok, .frame (s.eng.fseq + 1)⟩
          { s with lines := s.lines.set l (some { r with
            mode := .running
            head := if m = .fresh then 0 else r.head
            fill := if m = .fresh then 0 else if r.mode = .idle then r.length else r.fill }) }))

/-- TAP_ATTACH: WRONG_STATE for an attached tap or an undefined line, RANGE for a delay not below the length,
otherwise STEADY at the delay with step 0 (R26); TAP_DETACH frees an attached tap, with the glide count falling
for a GLIDING one (R27, R32); TAP_GAIN gives an attached tap its gain and bus and leaves the rest of the record
(R29); the latter two are WRONG_STATE for a FREE tap. -/
def Obligations.TapAttachDetachGain : Prop :=
  ∀ (s : State) (t : Fin 128) (tag : Tag) (rest : List Entry), s.held = false →
    s.eng.state = .stopped ∨ s.eng.state = .waiting → s.ring.length < 16 →
    (∀ l delay b g, s.req.queue = ⟨.tapAttach t l delay b g, tag, false⟩ :: rest →
      exec .tapAttach s = .next (
        if (s.taps[t]).isSome = true ∨ s.lines[l] = none then
          completeHead ⟨tag, .tapAttach, .wrongState, .none⟩ s
        else if (s.lines[l]).any (fun r => decide (delay.toNat < r.length)) then
          completeHead ⟨tag, .tapAttach, .ok, .frame (s.eng.fseq + 1)⟩ { s with
            taps := s.taps.set t (some
              { line := l, current := delay.toNat, target := delay.toNat, step := 0, bus := b, gain := g,
                gliding := false }) }
        else completeHead ⟨tag, .tapAttach, .range, .none⟩ s)) ∧
    (s.req.queue = ⟨.tapDetach t, tag, false⟩ :: rest →
      (s.taps[t] = none →
        exec .tapDetach s = .next (completeHead ⟨tag, .tapDetach, .wrongState, .none⟩ s)) ∧
      (∀ r, s.taps[t] = some r →
        exec .tapDetach s = .next (completeHead ⟨tag, .tapDetach, .ok, .frame (s.eng.fseq + 1)⟩ { s with
          taps := s.taps.set t none
          glideCount := if r.gliding then s.glideCount - 1 else s.glideCount
          ev := if r.gliding = true ∧ s.glideCount = 1 then raiseFlag .glidesSettled s.ev
            else s.ev }))) ∧
    (∀ g b, s.req.queue = ⟨.tapGain t g b, tag, false⟩ :: rest →
      (s.taps[t] = none →
        exec .tapGain s = .next (completeHead ⟨tag, .tapGain, .wrongState, .none⟩ s)) ∧
      (∀ r, s.taps[t] = some r →
        exec .tapGain s = .next (completeHead ⟨tag, .tapGain, .ok, .frame (s.eng.fseq + 1)⟩ { s with
          taps := s.taps.set t (some { r with gain := g, bus := b }) })))

/-- TAP_RETARGET: WRONG_STATE for a FREE tap, RANGE for a target not below the line's length, otherwise the
target and step are taken, the state follows the two delays and the glide count follows the state (R28). -/
def Obligations.TapRetargetSetsTarget : Prop :=
  ∀ (s : State) (t : Fin 128) (target : BitVec 32) (k : Nat) (tag : Tag) (rest : List Entry),
    s.held = false → s.req.queue = ⟨.tapRetarget t target k, tag, false⟩ :: rest →
    s.eng.state = .stopped ∨ s.eng.state = .waiting → s.ring.length < 16 →
    (s.taps[t] = none →
      exec .tapRetarget s = .next (completeHead ⟨tag, .tapRetarget, .wrongState, .none⟩ s)) ∧
    (∀ r lr, s.taps[t] = some r → s.lines[r.line] = some lr → lr.length ≤ target.toNat →
      exec .tapRetarget s = .next (completeHead ⟨tag, .tapRetarget, .range, .none⟩ s)) ∧
    (∀ r lr, s.taps[t] = some r → s.lines[r.line] = some lr → target.toNat < lr.length →
      exec .tapRetarget s = .next (completeHead ⟨tag, .tapRetarget, .ok, .frame (s.eng.fseq + 1)⟩ { s with
        taps := s.taps.set t (some { r with
          target := target.toNat, step := k, gliding := decide (target.toNat ≠ r.current) })
        glideCount :=
          if r.gliding = false ∧ target.toNat ≠ r.current then s.glideCount + 1
          else if r.gliding = true ∧ target.toNat = r.current then s.glideCount - 1
          else s.glideCount
        ev := if r.gliding = true ∧ target.toNat = r.current ∧ s.glideCount = 1 then
          raiseFlag .glidesSettled s.ev else s.ev }))

open Classical in
/-- The handover of a transfer: RANGE beyond the memory, REGION_BUSY over a RUNNING line, each with CELLS 0 and
the unit IDLE; otherwise the entry leaves the queue and is the active transfer with its counts 0, DATA_REQUEST
is raised for a write, a read or a fill claims its first burst, and the timer starts for a write (R83, R84,
R108, R111, R114, R115). -/
def Obligations.HandoverRefusesOrAccepts : Prop :=
  ∀ (s : State) (c : Instr) (q : Request) (k : TransferKind) (address n : BitVec 32) (tag : Tag)
    (rest : List Entry), s.held = false → s.req.queue = ⟨q, tag, false⟩ :: rest →
    ((c = .blockWrite ∧ q = .blockWrite address n ∧ k = .write) ∨
      (c = .blockRead ∧ q = .blockRead address n ∧ k = .read) ∨
      (c = .blockFill ∧ ∃ v, q = .blockFill address n v ∧ k = .fill v)) →
    s.tx.active = none → s.ring.length < 16 →
    (if 1048576 * 2 ^ s.port.memsize.toNat < address.toNat + n.toNat then
      exec c s = .next (completeHead ⟨tag, requestKind q, .range, .cells 0⟩ s)
    else if ∃ l : Fin 32, ∃ r ∈ s.lines[l], r.mode = .running ∧
        rangesOverlap address.toNat n.toNat r.base r.length = true then
      exec c s = .next (completeHead ⟨tag, requestKind q, .regionBusy, .cells 0⟩ s)
    else ∃ t, exec c s = .next t ∧
      t = { s with
        req := { s.req with queue := rest, mark := markOfHead s.eng.state rest }
        tx := ⟨some ⟨tag, k, address.toNat, n.toNat, 0, 0, 0, 0, none⟩, s.tx.fifo, t.tx.timer⟩
        port := { s.port with txClaim := t.port.txClaim }
        ev := if k = .write then raiseFlag .dataRequest s.ev else s.ev } ∧
      (s.tx.fifo = [] → s.tx.timer = none → s.port.txClaim = none → burstInFlight s.port = false →
        1 ≤ n.toNat →
        t.port.txClaim = (if k = .write then none else some ⟨k, address.toNat, min 16 n.toNat⟩) ∧
        t.tx.timer = (if k = .write ∧ s.port.txtimeout ≠ 0 then some (s.port.txtimeout.toNat * 64)
          else none)))

/-- A transfer in FINISHING writes its record with its final status and its cells done once a ring slot is
free and no burst of its own is in flight, and the unit goes to IDLE; otherwise nothing happens (R90, R97,
R117; a burst that a soft reset disowned does not count, log 10). -/
def Obligations.TransferWritesItsRecord : Prop :=
  ∀ (s : State) (x : Transfer), s.held = false → s.tx.active = some x →
    (∀ f, x.final = some f → s.ring.length < 16 → ownBurstInFlight s.port = false →
      exec .transferCompletion s = .next { s with
        tx := { s.tx with active := none }
        ring := s.ring ++ [
          { tag := x.tag
            kind := match x.kind with | .write => .blockWrite | .read => .blockRead | .fill _ => .blockFill
            status := match f with | .ok => .ok | .cancelled => .cancelled | .stalled => .stalled
            aux := .cells (if x.kind = .read then x.delivered else x.written) }]
        ev := raiseFlag .completion s.ev }) ∧
    (x.final = none ∨ ownBurstInFlight s.port = true → exec .transferCompletion s = .next s)

/-! ### Submission, cancellation and the ring -/

open Classical in
/-- SUBMIT: QFULL, BAD_KIND and BAD_FIELD in this order by the range checks of R70, otherwise a new entry with
the tag, kind and arguments of the staging area joins the tail, its mark clear, and is the head at once if the
queue was empty; the staging area stays (R67, R68, R69, R70, R71, R79). The kind of each request is listed
first (R68). -/
def Obligations.SubmitChecksThenQueues : Prop :=
  (∀ (l : Fin 32) (t : Fin 128) (b : Fin 16) (x y : BitVec 32) (g : BitVec 16) (src : Source) (m : StartMode)
      (k : Nat) (v : Sample),
    requestKind (.lineDefine l x y src) = .lineDefine ∧ requestKind (.lineRelease l) = .lineRelease ∧
    requestKind (.lineStart l m) = .lineStart ∧ requestKind (.lineFreeze l) = .lineFreeze ∧
    requestKind (.lineHalt l) = .lineHalt ∧ requestKind (.tapAttach t l x b g) = .tapAttach ∧
    requestKind (.tapDetach t) = .tapDetach ∧ requestKind (.tapRetarget t x k) = .tapRetarget ∧
    requestKind (.tapGain t g b) = .tapGain ∧ requestKind .mark = .mark ∧
    requestKind (.blockWrite x y) = .blockWrite ∧ requestKind (.blockRead x y) = .blockRead ∧
    requestKind (.blockFill x y v) = .blockFill) ∧
  ∀ (s : State) (v : Half), s.held = false →
    (if 8 ≤ s.req.queue.length then exec (.submit v) s = .next (hostError .qfull s)
    else if s.req.kindTag.toNat / 256 = 0 ∨ 13 < s.req.kindTag.toNat / 256 then
      exec (.submit v) s = .next (hostError .badKind s)
    else if ¬ fieldsAdmitted (s.req.kindTag.toNat / 256) s.req.args then
      exec (.submit v) s = .next (hostError .badField s)
    else ∃ q tag, kindCode (requestKind q) = s.req.kindTag.toNat / 256 ∧ carriesArgs s.req.args q ∧
      tag.toNat = s.req.kindTag.toNat % 256 ∧
      exec (.submit v) s = .next { s with req := { s.req with
        queue := s.req.queue ++ [⟨q, tag, false⟩]
        mark := if s.req.queue ≠ [] then s.req.mark
          else if q = .mark then some (if s.eng.state = .stopped then .dueStopped else .unarmed)
          else none } })

/-- CANCEL: the moving transfer with the tag is stopped, its FIFO flushed, its claim withdrawn and its timer
stopped; otherwise the oldest queued entry with the tag and a clear mark is marked; otherwise CANCEL_MISS
(R95, R96, R98, R99). POP removes the oldest record, or sets RING_EMPTY on an empty ring (R94). -/
def Obligations.CancelAndPop : Prop :=
  ∀ (s : State) (v : Half), s.held = false →
    (∀ x, s.tx.active = some x → x.final = none → x.tag = v.setWidth 8 →
      exec (.cancel v) s = .next { s with
        tx := ⟨some { x with final := some .cancelled }, [], none⟩
        port := { s.port with txClaim := none } }) ∧
    ((∀ x ∈ s.tx.active, x.final ≠ none ∨ x.tag ≠ v.setWidth 8) →
      (∀ older e younger, s.req.queue = older ++ e :: younger → e.tag = v.setWidth 8 →
        e.cancelled = false → (∀ o ∈ older, o.tag = v.setWidth 8 → o.cancelled = true) →
        exec (.cancel v) s = .next { s with req := { s.req with
          queue := older ++ { e with cancelled := true } :: younger } }) ∧
      ((∀ e ∈ s.req.queue, e.tag = v.setWidth 8 → e.cancelled = true) →
        exec (.cancel v) s = .next (hostError .cancelMiss s))) ∧
    (∀ r rest, s.ring = r :: rest → exec (.pop v) s = .next { s with ring := rest }) ∧
    (s.ring = [] → exec (.pop v) s = .next (hostError .ringEmpty s))

/-! ### The data port -/

open Classical in
/-- A push: DATA_UNEXPECTED unless the unit is WRITING with accepted below count, DATA_OVERRUN on a FIFO of 64
cells, otherwise the cell of the write latch and the low byte of the halfword joins the FIFO and accepted
rises (R105, R106). A pop takes the oldest cell of a READING transfer, its low half returned and its high half
in the read latch; the pop of the last cell ends the read with OK; any other pop returns 0, clears the latch
and sets DATA_UNDERRUN (R107, R113, R137; what a read returns is in `host.dataOut` by log 6). After an accepted
push and after a pop that takes a cell, the next burst is claimed if it is due, with its first cell and size,
and the starvation timer, if it runs, starts again with the full period (R108, R111, R115; neither while a
burst that a soft reset disowned is in flight, log 10). -/
def Obligations.DataPortPushesAndPops : Prop :=
  ∀ s : State, s.held = false →
    (∀ v : Half,
      (s.tx.active = none → exec (.dataHi v) s = .next (hostError .dataUnexpected s)) ∧
      (∀ x, s.tx.active = some x →
        (x.final ≠ none ∨ x.kind ≠ .write ∨ x.count ≤ x.accepted →
          exec (.dataHi v) s = .next (hostError .dataUnexpected s)) ∧
        (x.final = none → x.kind = .write → x.accepted < x.count → 64 ≤ s.tx.fifo.length →
          exec (.dataHi v) s = .next (hostError .dataOverrun s)) ∧
        (x.final = none → x.kind = .write → x.accepted < x.count → s.tx.fifo.length < 64 →
          ∃ t cell, exec (.dataHi v) s = .next t ∧
            cell.toNat = s.host.writeLatch.toNat + 65536 * (v.toNat % 256) ∧
            t = { s with
              tx := ⟨some { x with accepted := x.accepted + 1 }, s.tx.fifo ++ [cell], t.tx.timer⟩
              port := { s.port with txClaim := t.port.txClaim } } ∧
            ClaimFollows s t ∧ t.tx.timer = if HostAwaited t then some (fullPeriod s) else none))) ∧
    (∀ x cell rest, s.tx.active = some x → x.final = none → x.kind = .read → s.tx.fifo = cell :: rest →
      ∃ t, exec .dataLo s = .next t ∧
        t = { s with
          tx := ⟨some { x with
            delivered := x.delivered + 1
            final := if x.delivered + 1 = x.count then some .ok else none }, rest, t.tx.timer⟩
          port := { s.port with txClaim := t.port.txClaim }
          host := { s.host with dataOut := t.host.dataOut, readLatch := t.host.readLatch } } ∧
        ClaimFollows s t ∧ t.tx.timer = (if HostAwaited t then some (fullPeriod s) else none) ∧
        (t.host.readLatch ++ t.host.dataOut : BitVec 32).toInt = cell.toInt) ∧
    ((s.tx.fifo = [] ∨ ∀ x ∈ s.tx.active, x.final ≠ none ∨ x.kind ≠ .read) →
      exec .dataLo s = .next (hostError .dataUnderrun
        { s with host := { s.host with dataOut := 0, readLatch := 0 } }))

/-! ### The window -/

/-- A write to a low half loads only the write latch (R138); a commit gives the slot the cell of the latch and
the low byte of the halfword and sets its fresh flag (R140); OUT_LATCH copies the published bank (R141);
INSPECT_SEL stores bits 15 and 0 to 6 and copies the selected record (R142). -/
def Obligations.SlotsAndViews : Prop :=
  ∀ (s : State) (v : Half), s.held = false →
    (∀ p, exec (.lowHalfWrite p v) s = .next { s with host := { s.host with writeLatch := v } }) ∧
    (∀ i : Fin 16, ∃ cell : Sample,
      cell.toNat = s.host.writeLatch.toNat + 65536 * (v.toNat % 256) ∧
      exec (.inputCommit i v) s = .next { s with host := { s.host with
        slots := s.host.slots.set i cell
        fresh := s.host.fresh ||| (1#16 <<< i.val) } }) ∧
    exec (.outLatch v) s = .next { s with host := { s.host with view := s.eng.bank } } ∧
    (∃ sel : Half, sel.toNat = 32768 * (v.toNat / 32768) + v.toNat % 128 ∧
      exec (.inspectSel v) s = .next { s with host := { s.host with
        sel := sel
        inspect := if 32768 ≤ v.toNat then
            inspectTap s.taps[(⟨v.toNat % 128, Nat.mod_lt _ (by decide)⟩ : Fin 128)]
          else inspectLine s.lines[(⟨v.toNat % 32, Nat.mod_lt _ (by decide)⟩ : Fin 32)]
            (tapCount s ⟨v.toNat % 32, Nat.mod_lt _ (by decide)⟩) } })

open Classical in
/-- The inspection halfwords of a defined line in the memory hold its state, source, tap count, base, fill,
length, head and loop, and those of an attached tap its state, line, delays, step, bus and gain, in the bits of
R150; an UNDEFINED line and a FREE tap show 0. The state codes are 1 IDLE, 2 RUNNING and 3 FROZEN, the source
kinds 0 INPUT and 1 BUS with the index beside them (R150), an absent loop shows 0, and the tap count is the
number of attached taps whose line field holds the line (R2). -/
def Obligations.InspectionHoldsTheRecord : Prop :=
  (lineCode .idle = 1 ∧ lineCode .running = 2 ∧ ∀ loop, lineCode (.frozen loop) = 3) ∧
  (loopOf .idle = 0 ∧ loopOf .running = 0 ∧ ∀ loop, loopOf (.frozen loop) = loop) ∧
  (∀ i : Fin 16, sourceCode (.input i) = (0, i.val) ∧ sourceCode (.bus i) = (1, i.val)) ∧
  (∀ (s : State) (l : Fin 32),
    tapCount s l = (Finset.univ.filter fun t : Fin 128 => ∃ r ∈ s.taps[t], r.line = l).card) ∧
  (∀ (r : LineRec) (taps : Nat), r.inRange 8388608 = true → taps ≤ 128 →
    let h := inspectLine (some r) taps
    h[0].toNat % 4 = lineCode r.mode ∧ h[0].toNat / 4 % 2 = (sourceCode r.source).1 ∧
    h[0].toNat / 16 % 16 = (sourceCode r.source).2 ∧ h[0].toNat / 256 = taps ∧
    h[1].toNat + 65536 * (h[2].toNat % 128) = r.base ∧
    h[6].toNat + 65536 * (h[2].toNat / 256 % 32) = r.fill ∧
    h[3].toNat + 65536 * (h[4].toNat % 32) = r.length ∧
    h[5].toNat + 65536 * (h[4].toNat / 256 % 16) = r.head ∧
    h[7].toNat + 65536 * (h[4].toNat / 4096 % 16) = loopOf r.mode) ∧
  (∀ r : TapRec, r.current < 1048576 → r.target < 1048576 → r.step ≤ 255 →
    let h := inspectTap (some r)
    h[0].toNat % 4 = (if r.gliding then 2 else 1) ∧ h[0].toNat / 256 = r.line.val ∧
    h[1].toNat + 65536 * (h[2].toNat % 16) = r.current ∧
    h[3].toNat + 65536 * (h[2].toNat / 256 % 16) = r.target ∧
    h[4].toNat % 256 = r.step ∧ h[4].toNat / 256 = r.bus.val ∧ h[5] = r.gain ∧ h[6] = 0 ∧ h[7] = 0) ∧
  inspectLine none 0 = Vector.replicate 8 0 ∧ inspectTap none = Vector.replicate 8 0

/-- The read of a location that is no half of a pair returns what stands there and changes nothing else
(R136, R148): the counters and flags by R149's table, ENGSTAT, DEPTHS, MEMCFG, REFSTAT, RING0 and RING1 with
their fields in its bits, zeros at the ring view of an empty ring (R93), and 0 at write-only and undefined
locations (R136); what a read returns is in `host.dataOut` by log 6. The codes in those fields are listed
first: tick source (R143), engine and Transfer Unit state (R149), request kind (R68), status and aux kind
(R89). -/
def Obligations.StatusReadsGiveTheirFields : Prop :=
  (tickSourceCode .fck = 1 ∧ tickSourceCode .step = 2) ∧
  (engineCode .stopped = 0 ∧ engineCode .waiting = 1 ∧ engineCode .servicing = 2 ∧ engineCode .stopping = 3) ∧
  (transferCode none = 0 ∧ ∀ x : Transfer, (x.final ≠ none → transferCode (some x) = 4) ∧
    (x.final = none → (x.kind = .write → transferCode (some x) = 1) ∧
      (x.kind = .read → transferCode (some x) = 2) ∧ ∀ v, x.kind = .fill v → transferCode (some x) = 3)) ∧
  (kindCode .lineDefine = 1 ∧ kindCode .lineRelease = 2 ∧ kindCode .lineStart = 3 ∧ kindCode .lineFreeze = 4 ∧
    kindCode .lineHalt = 5 ∧ kindCode .tapAttach = 6 ∧ kindCode .tapDetach = 7 ∧ kindCode .tapRetarget = 8 ∧
    kindCode .tapGain = 9 ∧ kindCode .mark = 10 ∧ kindCode .blockWrite = 11 ∧ kindCode .blockRead = 12 ∧
    kindCode .blockFill = 13) ∧
  (statusCode .ok = 0 ∧ statusCode .wrongState = 1 ∧ statusCode .range = 2 ∧ statusCode .overlap = 3 ∧
    statusCode .tapRange = 4 ∧ statusCode .hasTaps = 5 ∧ statusCode .regionBusy = 6 ∧
    statusCode .cancelled = 7 ∧ statusCode .stalled = 8 ∧ statusCode .engineStopped = 9) ∧
  (auxCode .none = 0 ∧ (∀ n, auxCode (.frame n) = 1) ∧ ∀ n, auxCode (.cells n) = 2) ∧
  ∀ s : State, s.held = false → WithinCapacities s →
    ∃ value : Offset → Half,
      (∀ off : Offset, off ≠ 0x1E#7 → latchedPair off.toNat s = none → isLatchedHigh off.toNat = false →
        exec (.lowHalfRead off) s = .next { s with host := { s.host with dataOut := value off } }) ∧
      (value 0x00).toNat = 256 * tickSourceCode s.eng.tickSource ∧
      (value 0x01).toNat % 4 = engineCode s.eng.state ∧
      (value 0x01).getLsbD 2 = s.eng.pendingTick ∧
      (value 0x01).toNat / 16 = transferCode s.tx.active ∧
      value 0x04 = s.eng.overrun ∧
      (s.glideCount ≤ 128 → (value 0x05).toNat = s.glideCount) ∧
      (value 0x06).toNat / 256 = s.req.queue.length ∧ (value 0x06).toNat % 256 = s.ring.length ∧
      (value 0x07).toNat = s.host.errors.toNat ∧
      (value 0x08).toNat = s.ev.flags.toNat ∧ (value 0x09).toNat = s.ev.mask.toNat ∧
      (value 0x0A).toNat % 4 = s.port.memsize.toNat ∧ (value 0x0A).getLsbD 8 = s.port.refreshOn ∧
      (value 0x0B).toNat = s.port.refint.toNat ∧
      (value 0x0C).toNat / 256 = s.port.debt ∧ (value 0x0C).toNat % 256 = s.port.late.toNat ∧
      value 0x0D = s.port.txtimeout ∧ value 0x0E = s.eng.stale ∧
      value 0x10 = s.req.kindTag ∧ (∀ k : Fin 6, value (BitVec.ofNat 7 (0x11 + k.val)) = s.req.args[k]) ∧
      (∀ r rest, s.ring = r :: rest →
        (value 0x19).toNat / 256 = kindCode r.kind ∧ (value 0x19).toNat % 256 = r.tag.toNat ∧
        (value 0x1A).toNat % 256 = statusCode r.status ∧ (value 0x1A).toNat / 256 = auxCode r.aux) ∧
      (s.ring = [] → value 0x19 = 0 ∧ value 0x1A = 0) ∧
      value 0x62 = s.host.view.sat ∧ value 0x64 = s.host.sel ∧
      (∀ k : Fin 8, value (BitVec.ofNat 7 (0x65 + k.val)) = s.host.inspect[k]) ∧
      (∀ off : Offset, off ∈ [0x0F#7, 0x17#7, 0x18#7, 0x1D#7, 0x63#7] ∨ 0x6D ≤ off.toNat → value off = 0)

/-- A read of the low half of a latched pair returns the low half and loads the latch with the high half of
the same value; the high half reads the latch and leaves it. FSEQ, the slots, the output view, the aux part of
the oldest record and OUT_SEQ are such pairs, a cell sign-extended to 32 bits, and no other location but the
data port's is a half of one (R137; what a read returns is in `host.dataOut` by log 6). -/
def Obligations.PairReadsThroughLatch : Prop :=
  ∀ s : State, s.held = false →
    (∀ (off : Offset) (w : BitVec 32), latchedPair off.toNat s = some w →
      exec (.lowHalfRead off) s = .next { s with host := { s.host with
        dataOut := w.extractLsb' 0 16, readLatch := w.extractLsb' 16 16 } }) ∧
    (∀ off : Offset, off.toNat ∈ [0x03, 0x1C, 0x1F, 0x61] ∨
        (0x21 ≤ off.toNat ∧ off.toNat ≤ 0x5F ∧ off.toNat % 2 = 1) →
      exec (.lowHalfRead off) s = .next { s with host := { s.host with dataOut := s.host.readLatch } }) ∧
    (∀ off : Offset, isLatchedHigh off.toNat = true ↔ off.toNat ∈ [0x03, 0x1C, 0x1F, 0x61] ∨
      (0x21 ≤ off.toNat ∧ off.toNat ≤ 0x5F ∧ off.toNat % 2 = 1)) ∧
    (∀ off : Offset, latchedPair off.toNat s ≠ none ↔ off.toNat ∈ [0x02, 0x1B, 0x60] ∨
      (0x20 ≤ off.toNat ∧ off.toNat ≤ 0x5E ∧ off.toNat % 2 = 0)) ∧
    latchedPair 0x02 s = some s.eng.fseq ∧ latchedPair 0x60 s = some s.host.view.frame ∧
    (s.ring = [] → latchedPair 0x1B s = some 0) ∧
    (∀ r rest, s.ring = r :: rest → latchedPair 0x1B s = some (match r.aux with
      | .none => 0
      | .frame n => n
      | .cells n => BitVec.ofNat 32 n)) ∧
    (∀ i : Fin 16, latchedPair (0x20 + 2 * i.val) s = some (BitVec.signExtend 32 s.host.slots[i])) ∧
    (∀ b : Fin 16, latchedPair (0x40 + 2 * b.val) s = some (BitVec.signExtend 32 s.host.view.values[b]))

/-- Raising an event sets its flag and leaves the other flags and the mask (R153); a host error sets its flag
and raises HOST_ERROR only if that flag was clear (R146, R156). The bits of the nine events (R153) and of the
nine host errors (R146) are listed first. -/
def Obligations.EventsAndHostErrorsRise : Prop :=
  (eventBit .frameDone = 0 ∧ eventBit .overrun = 1 ∧ eventBit .inputStale = 2 ∧ eventBit .saturation = 3 ∧
    eventBit .glidesSettled = 4 ∧ eventBit .completion = 5 ∧ eventBit .dataRequest = 6 ∧
    eventBit .refreshLate = 7 ∧ eventBit .hostError = 8) ∧
  (hostErrorBit .qfull = 0 ∧ hostErrorBit .badKind = 1 ∧ hostErrorBit .badField = 2 ∧
    hostErrorBit .cancelMiss = 3 ∧ hostErrorBit .ringEmpty = 4 ∧ hostErrorBit .dataUnexpected = 5 ∧
    hostErrorBit .dataOverrun = 6 ∧ hostErrorBit .dataUnderrun = 7 ∧ hostErrorBit .configBusy = 8) ∧
  (∀ (e : Event) (ev : EventUnit), (raiseFlag e ev).mask = ev.mask ∧
    ∀ i < 9, (raiseFlag e ev).flags.getLsbD i = (ev.flags.getLsbD i || decide (i = eventBit e))) ∧
  (∀ (e : HostError) (s : State),
    hostError e s = { s with
      host := { s.host with errors := s.host.errors ||| (1#9 <<< hostErrorBit e) }
      ev := if s.host.errors.getLsbD (hostErrorBit e) then s.ev else raiseFlag .hostError s.ev })

/-- A write to EVENTS clears the flags written with 1, leaves the others, ignores bits 9 to 15 and changes
nothing else; after a raise it removes the flag raised, and a raise after it sets the flag again, while a raise
of another event keeps its flag in either order (R155). -/
def Obligations.EventsWriteClears : Prop :=
  ∀ (s : State) (v : Half), s.held = false →
    ∃ flags : BitVec 9, exec (.events v) s = .next { s with ev := { s.ev with flags := flags } } ∧
      (∀ i < 9, flags.getLsbD i = (s.ev.flags.getLsbD i && !v.getLsbD i)) ∧
      ∀ e : Event,
        (∃ t, exec (.events v) (raise e s) = .next t ∧
          t.ev.flags.getLsbD (eventBit e) = !v.getLsbD (eventBit e) ∧
          ∀ i < 9, i ≠ eventBit e → t.ev.flags.getLsbD i = flags.getLsbD i) ∧
        ∀ t, exec (.events v) s = .next t → (raise e t).ev.flags.getLsbD (eventBit e) = true

/-- A write of EVMASK stores bits 0 to 8 and is never refused; a read returns the mask with bits 9 to 15 zero;
the mask acts on no flag, raised or cleared, only on IRQ (R157). IRQ is asserted exactly while a set flag has
its mask bit set (R158). That the read is a LOW_HALF_READ at 09h which leaves the mask in `host.dataOut` is the
model's choice (log 6, log 11). -/
def Obligations.MaskActsOnIrqOnly : Prop :=
  (∀ (s : State) (v : Half), s.held = false →
    ∃ mask : BitVec 9, exec (.evmask v) s = .next { s with ev := { s.ev with mask := mask } } ∧
      (∀ i < 9, mask.getLsbD i = v.getLsbD i) ∧
      ∃ t, exec (.lowHalfRead 0x09) s = .next { s with host := { s.host with dataOut := t } } ∧
        (∀ i < 9, t.getLsbD i = s.ev.mask.getLsbD i) ∧ ∀ i, 9 ≤ i → t.getLsbD i = false) ∧
  (∀ (e : Event) (flags m m' : BitVec 9), (raiseFlag e ⟨flags, m⟩).flags = (raiseFlag e ⟨flags, m'⟩).flags) ∧
  (∀ (s t t' : State) (m : BitVec 9) (v : Half), exec (.events v) s = .next t →
    exec (.events v) { s with ev := { s.ev with mask := m } } = .next t' → t'.ev.flags = t.ev.flags) ∧
  (∀ s : State, irq s = true ↔ ∃ i < 9, s.ev.flags.getLsbD i = true ∧ s.ev.mask.getLsbD i = true)

/-- A write to HOSTERR clears the flags written with 1 and leaves the others and the Event Unit; a read returns
the flags; the next cause of a cleared flag sets it and raises HOST_ERROR again; both resets clear all nine and
raise nothing (R147). That the read is a LOW_HALF_READ at 07h which leaves the flags in `host.dataOut` is the
model's choice (log 6, log 11). -/
def Obligations.HosterrWriteClears : Prop :=
  ∀ (s : State) (v : Half), s.held = false →
    ∃ t, exec (.hosterr v) s = .next t ∧ t = { s with host := { s.host with errors := t.host.errors } } ∧
      (∀ i < 9, t.host.errors.getLsbD i = (s.host.errors.getLsbD i && !v.getLsbD i)) ∧
      (∃ h : Half, exec (.lowHalfRead 0x07) s = .next { s with host := { s.host with dataOut := h } } ∧
        h.toNat = s.host.errors.toNat) ∧
      (∀ e : HostError, v.getLsbD (hostErrorBit e) = true →
        (hostError e t).host.errors.getLsbD (hostErrorBit e) = true ∧
        (hostError e t).ev = raiseFlag .hostError t.ev) ∧
      (∀ c, c = .softReset ∨ c = .deviceReset → ∃ u, exec c s = .next u ∧ u.host.errors = 0 ∧ u.ev.flags = 0)

open Classical in
/-- MEMCFG: the MEMSIZE field changes the code only with the engine STOPPED, the Transfer Unit IDLE and every
defined line within the new size, and is refused with CONFIG_BUSY otherwise (R130); the refresh-enable field
starts a full period, or stops the timer and clears the debt, and a field naming the state in force changes
nothing (R128); one write of MEMCFG takes both (R128, R130). -/
def Obligations.MemcfgFields : Prop :=
  ∀ s : State, s.held = false →
    (∀ code, exec (.memsize code) s = .next (
      if s.port.memsize = code then s
      else if s.eng.state ≠ .stopped ∨ s.tx.active ≠ none ∨
          ∃ l : Fin 32, ∃ r ∈ s.lines[l], 1048576 * 2 ^ code.toNat < r.base + r.length then
        hostError .configBusy s
      else { s with port := { s.port with memsize := code } })) ∧
    (∀ on, exec (.refreshEnable on) s = .next (
      if s.port.refreshOn = on then s
      else { s with port := { s.port with
        refreshOn := on, debt := 0,
        refreshTimer := if on then some s.port.refint.toNat else none } })) ∧
    (∀ v t, exec (.memsize (v.extractLsb' 0 2)) s = .next t →
      exec (.registerWrite 0x0A v) s = exec (.refreshEnable (v.getLsbD 8)) t)

/-- A write of REFINT stores its low byte at once and leaves the period in progress; a low byte of 0 is refused
with CONFIG_BUSY; the stored value is read back, is the period taken at the next expiry, and is the period
taken when refresh is next enabled (R129). That the read is a LOW_HALF_READ at 0Bh which leaves the value in
`host.dataOut` (log 6, log 11), and that an expiry command says the running period is over (log 13), are the
model's choices. -/
def Obligations.RefintTakesEffectAtNextStart : Prop :=
  ∀ (s : State) (v : Half), s.held = false →
    (v.toNat % 256 = 0 → exec (.refint v) s = .next (hostError .configBusy s)) ∧
    (v.toNat % 256 ≠ 0 → ∃ t, exec (.refint v) s = .next t ∧
      t = { s with port := { s.port with refint := v.extractLsb' 0 8 } } ∧
      (∃ u, exec (.lowHalfRead 0x0B) t = .next u ∧ u.host.dataOut.toNat = v.toNat % 256) ∧
      (t.port.refreshTimer ≠ none → ∃ u, exec .refreshTimerExpiry t = .next u ∧
        u.port.refreshTimer = some (v.toNat % 256)) ∧
      (s.port.refreshTimer ≠ none → ∃ u w, exec .refreshTimerExpiry s = .next u ∧
        exec (.refint v) u = .next w ∧ w.port.refreshTimer = some s.port.refint.toNat) ∧
      (t.port.refreshOn = false → ∃ u, exec (.refreshEnable true) t = .next u ∧
        u.port.refreshTimer = some (v.toNat % 256)))

/-- The writes of one register: OVERRUN and REFSTAT clear their counter at any value and REFSTAT leaves the
debt (R49, R127); STALEMASK clears the flags written with 1 (R55); a staging halfword is stored and no latch
touched (R67); a write at an undefined offset, or at a read-only location, changes nothing (R136). -/
def Obligations.RegisterWritesStoreOrClear : Prop :=
  ∀ (s : State) (v : Half), s.held = false →
    exec (.overrunWrite v) s = .next { s with eng := { s.eng with overrun := 0 } } ∧
    exec (.refstat v) s = .next { s with port := { s.port with late := 0 } } ∧
    exec (.stalemask v) s = .next { s with eng := { s.eng with stale := s.eng.stale &&& ~~~v } } ∧
    exec (.registerWrite 0x10 v) s = .next { s with req := { s.req with kindTag := v } } ∧
    (∀ k : Fin 6, exec (.registerWrite (BitVec.ofNat 7 (0x11 + k.val)) v) s =
      .next { s with req := { s.req with args := s.req.args.set k v } }) ∧
    (∀ off : Offset, (off.toNat ∈ [0x01, 0x02, 0x03, 0x05, 0x06, 0x0F, 0x19, 0x1A, 0x1B, 0x1C] ∨
        (0x40 ≤ off.toNat ∧ off.toNat ≤ 0x62) ∨ 0x65 ≤ off.toNat) →
      exec (.registerWrite off v) s = .next s)

/-! ### Resets and the DRAM -/

/-- A soft reset resets every block in one step and keeps the tick source, the memory configuration, REFINT,
TXTIMEOUT, refresh and the DRAM; claims are withdrawn and the operation in flight runs on, disowned (R3, R24,
R66, R87, R102, R120, R134, R144, R152, R159; that it keeps `host.dataOut` is log 6, and the mark by which the
operation is disowned is log 10). -/
def Obligations.SoftResetKeepsMemory : Prop :=
  ∀ s : State, s.held = false →
    ∃ t, exec .softReset s = .next t ∧
      t = { State.reset with
        pending := s.pending
        eng := { State.reset.eng with tickSource := s.eng.tickSource }
        port := { s.port with engineClaim := none, txClaim := none, op := t.port.op }
        dram := s.dram
        host := { State.reset.host with dataOut := s.host.dataOut } } ∧
      (s.port.op = none → t.port.op = none) ∧
      ∀ o, s.port.op = some o → t.port.op = some ⟨o.op, false⟩

/-- RST# asserted sets every block to its device reset values and loses the DRAM contents; its release lets the
part proceed from them (R134, R145). The values: every line UNDEFINED and every tap FREE, engine STOPPED with
source FCK and FSEQ 0, every queue, ring and FIFO empty, MEMSIZE 0, refresh disabled with debt 0, REFINT 1,
TXTIMEOUT 0, staging area, latches, slots, fresh flags, output view, INSPECT_SEL, inspection halfwords, glide
count, snapshot, accumulators, bank and stale mask 0, no event, no error (R3, R24, R66, R87, R102, R120, R134,
R152, R159). The epoch and the fitted size of the DRAM are the model's own (log 7, log 8), and so is that
`host.dataOut` is 0 (log 6). -/
def Obligations.DeviceResetAndRelease : Prop :=
  (∀ s : State, (∃ t, exec .deviceReset s = .next t ∧
      t = { State.reset with pending := s.pending, held := true, dram := t.dram } ∧
      t.dram.cells = [] ∧ t.dram.epoch = s.dram.epoch + 1 ∧ t.dram.fitted = s.dram.fitted ∧
      irq t = false) ∧
    exec .rstRelease s = .next { s with held := false }) ∧
  (∀ l : Fin 32, State.reset.lines[l] = none) ∧ (∀ t : Fin 128, State.reset.taps[t] = none) ∧
  State.reset.eng.state = .stopped ∧ State.reset.eng.tickSource = .fck ∧ State.reset.eng.fseq = 0 ∧
  State.reset.eng.pendingTick = false ∧ State.reset.eng.overrun = 0 ∧
  State.reset.eng.snapshot = Vector.replicate 16 0 ∧ State.reset.eng.acc = Vector.replicate 16 0 ∧
  State.reset.eng.bank = ⟨Vector.replicate 16 0, 0, 0⟩ ∧ State.reset.eng.stale = 0 ∧
  State.reset.glideCount = 0 ∧
  State.reset.req = ⟨0, Vector.replicate 6 0, [], none⟩ ∧ State.reset.ring = [] ∧ State.reset.tx = ⟨none, [], none⟩ ∧
  State.reset.port = ⟨0, false, none, 0, 0, 1, 0, none, none, none⟩ ∧
  State.reset.host.errors = 0 ∧ State.reset.host.readLatch = 0 ∧ State.reset.host.writeLatch = 0 ∧
  State.reset.host.slots = Vector.replicate 16 0 ∧ State.reset.host.fresh = 0 ∧
  State.reset.host.view = ⟨Vector.replicate 16 0, 0, 0⟩ ∧ State.reset.host.sel = 0 ∧
  State.reset.host.inspect = Vector.replicate 8 0 ∧
  State.reset.ev = ⟨0, 0⟩

/-- The DRAM: a cell within the device reads what was last written to it, a write leaves every other cell, and
after a loss of contents a cell reads a free value of a new epoch (R105, R128, R131, R134; log 7, log 8). -/
def Obligations.DramReadsLastWrite : Prop :=
  (∀ (d : Dram) (a : Nat) (v : Sample) (k : Nat), a < d.fitted → (d.write a v).valueAt k a = v) ∧
    (∀ (d : Dram) (a b : Nat) (v : Sample) (k : Nat), b ≠ a →
      (d.write a v).valueAt k b = d.valueAt k b) ∧
    ∀ s : State, exec .dramContentsLost s = .next { s with
        dram := { s.dram with cells := [], epoch := s.dram.epoch + 1 } } ∧
      ∀ t k a, exec .dramContentsLost s = .next t → a < s.dram.fitted →
        t.dram.valueAt k a = Config.unwrittenCell (s.dram.epoch + 1) a

/-! ### Whole-machine rules -/

/-- Every invariant holds at reset. -/
def Obligations.ResetMeetsEveryInvariant : Prop :=
  LinesSound State.reset ∧ TapsSound State.reset ∧ GlidesSound State.reset ∧
    TransferClearOfRunningLines State.reset ∧ WithinCapacities State.reset ∧
    StoppedHoldsNoTick State.reset ∧ EngineSound State.reset ∧ TransferSound State.reset ∧
    TransferPrompt State.reset ∧ RefreshSound State.reset ∧ HeldAtReset State.reset ∧
    MarkSound State.reset ∧ State.reset.dram.wf = true

/-- Every step keeps the regions of defined lines in the memory and disjoint, with head below length and fill
at most length (R1, R11). -/
def Obligations.StepKeepsRegionsDisjoint : Prop :=
  ∀ s t : State, LinesSound s → step s = .next t → LinesSound t

/-- Every step keeps every attached tap on a defined line with both delays below its length (R23). -/
def Obligations.StepKeepsTapsOnTheirLines : Prop :=
  ∀ s t : State, TapsSound s → step s = .next t → TapsSound t

/-- Every step keeps each tap's state in agreement with its delays, and the glide count equal to the number of
gliding taps (R23, R31). -/
def Obligations.StepKeepsGlideCount : Prop :=
  ∀ s t : State, GlidesSound s → step s = .next t → GlidesSound t

/-- Every step keeps the active transfer's range clear of every RUNNING line (R13). -/
def Obligations.StepKeepsTransferOffRunningLines : Prop :=
  ∀ s t : State, TransferClearOfRunningLines s → step s = .next t → TransferClearOfRunningLines t

/-- Every step keeps the engine to one access at a time, none outside a service, and every accumulator within
2^38 for each tap passed, hence within 48 bits (R36, R52). -/
def Obligations.StepKeepsAccumulatorsIn48Bits : Prop :=
  (∀ s t : State, EngineSound s → step s = .next t → EngineSound t) ∧
    ∀ s : State, EngineSound s → ∀ b : Fin 16, -(2 ^ 47 : Int) ≤ s.eng.acc[b] ∧ s.eng.acc[b] < 2 ^ 47

/-- Every step keeps the Transfer Unit's books: at most 64 cells in the FIFO, every cell accounted for, and an
empty FIFO without claim in IDLE and FINISHING (R103, R104, R108, R111, R117). That no claim stands beside a
burst in flight counts a burst that a soft reset disowned, which is the model's choice (log 10). -/
def Obligations.StepKeepsTransferAccounts : Prop :=
  ∀ s t : State, TransferSound s → step s = .next t → TransferSound t

/-- After every step a burst whose claim condition holds is claimed, and the starvation timer runs exactly
while its three conditions hold (R108, R111, R114, R115). That a burst which a soft reset disowned counts as in
flight, so that a due burst stays unclaimed and the timer stopped while it runs, is the model's choice
(log 10). -/
def Obligations.StepKeepsClaimsPrompt : Prop :=
  ∀ s t : State, TransferPrompt s → step s = .next t → TransferPrompt t

/-- Every step keeps the mark state: present exactly while a MARK is the head, ARMED only on the service in
progress, never UNARMED in STOPPED (R79, R80, R81). -/
def Obligations.StepKeepsMarkState : Prop :=
  ∀ s t : State, MarkSound s → step s = .next t → MarkSound t

/-- Every step keeps the capacities of queue, ring and debt (R72, R90, R126), the pending tick 0 in STOPPED
(R43), the Refresh Timer running exactly while refresh is enabled (R125, R128), the held reset state (R145),
and the canonical form of the DRAM (log 7). -/
def Obligations.StepKeepsControlInvariants : Prop :=
  ∀ s t : State, step s = .next t →
    (WithinCapacities s → WithinCapacities t) ∧ (StoppedHoldsNoTick s → StoppedHoldsNoTick t) ∧
    (RefreshSound s → RefreshSound t) ∧ (HeldAtReset s → HeldAtReset t) ∧
    (s.dram.wf = true → t.dram.wf = true)

/-- The count of requests: every command but a reset keeps the accepted requests in balance, whatever head it
takes; SUBMIT changes it by the entry it adds, none or one, and POP by the record it removes, none or one
(R86). -/
def Obligations.RequestsAreConserved : Prop :=
  ∀ (c : Instr) (s t : State), exec c s = .next t → ¬ isReset c →
    (¬ isSubmission c → ¬ isPop c → outstanding t = outstanding s) ∧
    (isSubmission c → outstanding t + s.req.queue.length = outstanding s + t.req.queue.length ∧
      s.req.queue.length ≤ t.req.queue.length ∧ t.req.queue.length ≤ s.req.queue.length + 1) ∧
    (isPop c → outstanding t + s.ring.length = outstanding s + t.ring.length ∧
      t.ring.length ≤ s.ring.length ∧ s.ring.length ≤ t.ring.length + 1)

/-- A granted operation runs to its completion: no command but its own completion, or a device reset, takes it
from the port or changes it (R121). -/
def Obligations.GrantedOperationIsNeverCut : Prop :=
  ∀ (c : Instr) (s t : State) (o : PortOp), s.port.op = some o → exec c s = .next t →
    c ≠ completionOf o.op → c ≠ .deviceReset → ∃ owned, t.port.op = some ⟨o.op, owned⟩

/-- A service is ended only by its publish or a reset (R48, R50), and while it runs no record of the Line Table
and the Tap Table changes but by the service's own turns, its line writes' grants, or a reset (R61). -/
def Obligations.ServiceOwnsTheTables : Prop :=
  ∀ (c : Instr) (s t : State), inService s = true → exec c s = .next t →
    c ≠ .softReset → c ≠ .deviceReset → (∀ v : Half, c = .registerWrite 0 v → v.getLsbD 3 = false) →
    (c ≠ .publish → inService t = true) ∧
    (c ≠ .glideStage → c ≠ .lineWriteStage → c ≠ .lineWriteGrant →
      t.lines = s.lines ∧ t.taps = s.taps ∧ t.glideCount = s.glideCount)
end

