-- ==== Sys2Proof/Laws/State.lean ====
section
/-! SUPPORT. The fields of the machine after each named update: one lemma per field per update. -/

namespace Sys2Proof.Machine

@[simp] theorem raise_pending (e : Event) (s : State) : (raise e s).pending = s.pending := rfl
@[simp] theorem raise_held (e : Event) (s : State) : (raise e s).held = s.held := rfl
@[simp] theorem raise_lines (e : Event) (s : State) : (raise e s).lines = s.lines := rfl
@[simp] theorem raise_taps (e : Event) (s : State) : (raise e s).taps = s.taps := rfl
@[simp] theorem raise_glideCount (e : Event) (s : State) : (raise e s).glideCount = s.glideCount := rfl
@[simp] theorem raise_eng (e : Event) (s : State) : (raise e s).eng = s.eng := rfl
@[simp] theorem raise_req (e : Event) (s : State) : (raise e s).req = s.req := rfl
@[simp] theorem raise_ring (e : Event) (s : State) : (raise e s).ring = s.ring := rfl
@[simp] theorem raise_tx (e : Event) (s : State) : (raise e s).tx = s.tx := rfl
@[simp] theorem raise_port (e : Event) (s : State) : (raise e s).port = s.port := rfl
@[simp] theorem raise_dram (e : Event) (s : State) : (raise e s).dram = s.dram := rfl
@[simp] theorem raise_host (e : Event) (s : State) : (raise e s).host = s.host := rfl
@[simp] theorem raise_ev (e : Event) (s : State) : (raise e s).ev = raiseFlag e s.ev := rfl

@[simp] theorem hostError_pending (e : HostError) (s : State) : (hostError e s).pending = s.pending := rfl
@[simp] theorem hostError_held (e : HostError) (s : State) : (hostError e s).held = s.held := rfl
@[simp] theorem hostError_lines (e : HostError) (s : State) : (hostError e s).lines = s.lines := rfl
@[simp] theorem hostError_taps (e : HostError) (s : State) : (hostError e s).taps = s.taps := rfl
@[simp] theorem hostError_glideCount (e : HostError) (s : State) :
    (hostError e s).glideCount = s.glideCount := rfl
@[simp] theorem hostError_eng (e : HostError) (s : State) : (hostError e s).eng = s.eng := rfl
@[simp] theorem hostError_req (e : HostError) (s : State) : (hostError e s).req = s.req := rfl
@[simp] theorem hostError_ring (e : HostError) (s : State) : (hostError e s).ring = s.ring := rfl
@[simp] theorem hostError_tx (e : HostError) (s : State) : (hostError e s).tx = s.tx := rfl
@[simp] theorem hostError_port (e : HostError) (s : State) : (hostError e s).port = s.port := rfl
@[simp] theorem hostError_dram (e : HostError) (s : State) : (hostError e s).dram = s.dram := rfl
@[simp] theorem hostError_host (e : HostError) (s : State) :
    (hostError e s).host = { s.host with errors := s.host.errors ||| BitVec.twoPow 9 (hostErrorBit e) } := rfl
@[simp] theorem hostError_ev (e : HostError) (s : State) :
    (hostError e s).ev = raiseFlagIf (!s.host.errors.getLsbD (hostErrorBit e)) .hostError s.ev := rfl

@[simp] theorem setLine_pending (l : Fin 32) (r : Option LineRec) (s : State) :
    (setLine l r s).pending = s.pending := rfl
@[simp] theorem setLine_held (l : Fin 32) (r : Option LineRec) (s : State) :
    (setLine l r s).held = s.held := rfl
@[simp] theorem setLine_lines (l : Fin 32) (r : Option LineRec) (s : State) :
    (setLine l r s).lines = s.lines.set l r := rfl
@[simp] theorem setLine_taps (l : Fin 32) (r : Option LineRec) (s : State) :
    (setLine l r s).taps = s.taps := rfl
@[simp] theorem setLine_glideCount (l : Fin 32) (r : Option LineRec) (s : State) :
    (setLine l r s).glideCount = s.glideCount := rfl
@[simp] theorem setLine_eng (l : Fin 32) (r : Option LineRec) (s : State) : (setLine l r s).eng = s.eng := rfl
@[simp] theorem setLine_req (l : Fin 32) (r : Option LineRec) (s : State) : (setLine l r s).req = s.req := rfl
@[simp] theorem setLine_ring (l : Fin 32) (r : Option LineRec) (s : State) :
    (setLine l r s).ring = s.ring := rfl
@[simp] theorem setLine_tx (l : Fin 32) (r : Option LineRec) (s : State) : (setLine l r s).tx = s.tx := rfl
@[simp] theorem setLine_port (l : Fin 32) (r : Option LineRec) (s : State) :
    (setLine l r s).port = s.port := rfl
@[simp] theorem setLine_dram (l : Fin 32) (r : Option LineRec) (s : State) :
    (setLine l r s).dram = s.dram := rfl
@[simp] theorem setLine_host (l : Fin 32) (r : Option LineRec) (s : State) :
    (setLine l r s).host = s.host := rfl
@[simp] theorem setLine_ev (l : Fin 32) (r : Option LineRec) (s : State) : (setLine l r s).ev = s.ev := rfl

@[simp] theorem setTap_pending (t : Fin 128) (r : Option TapRec) (s : State) :
    (setTap t r s).pending = s.pending := rfl
@[simp] theorem setTap_held (t : Fin 128) (r : Option TapRec) (s : State) : (setTap t r s).held = s.held := rfl
@[simp] theorem setTap_lines (t : Fin 128) (r : Option TapRec) (s : State) :
    (setTap t r s).lines = s.lines := rfl
@[simp] theorem setTap_taps (t : Fin 128) (r : Option TapRec) (s : State) :
    (setTap t r s).taps = s.taps.set t r := rfl
@[simp] theorem setTap_glideCount (t : Fin 128) (r : Option TapRec) (s : State) :
    (setTap t r s).glideCount = s.glideCount := rfl
@[simp] theorem setTap_eng (t : Fin 128) (r : Option TapRec) (s : State) : (setTap t r s).eng = s.eng := rfl
@[simp] theorem setTap_req (t : Fin 128) (r : Option TapRec) (s : State) : (setTap t r s).req = s.req := rfl
@[simp] theorem setTap_ring (t : Fin 128) (r : Option TapRec) (s : State) : (setTap t r s).ring = s.ring := rfl
@[simp] theorem setTap_tx (t : Fin 128) (r : Option TapRec) (s : State) : (setTap t r s).tx = s.tx := rfl
@[simp] theorem setTap_port (t : Fin 128) (r : Option TapRec) (s : State) : (setTap t r s).port = s.port := rfl
@[simp] theorem setTap_dram (t : Fin 128) (r : Option TapRec) (s : State) : (setTap t r s).dram = s.dram := rfl
@[simp] theorem setTap_host (t : Fin 128) (r : Option TapRec) (s : State) : (setTap t r s).host = s.host := rfl
@[simp] theorem setTap_ev (t : Fin 128) (r : Option TapRec) (s : State) : (setTap t r s).ev = s.ev := rfl

@[simp] theorem glideCountFalls_pending (s : State) : (glideCountFalls s).pending = s.pending := rfl
@[simp] theorem glideCountFalls_held (s : State) : (glideCountFalls s).held = s.held := rfl
@[simp] theorem glideCountFalls_lines (s : State) : (glideCountFalls s).lines = s.lines := rfl
@[simp] theorem glideCountFalls_taps (s : State) : (glideCountFalls s).taps = s.taps := rfl
@[simp] theorem glideCountFalls_glideCount (s : State) :
    (glideCountFalls s).glideCount = s.glideCount - 1 := rfl
@[simp] theorem glideCountFalls_eng (s : State) : (glideCountFalls s).eng = s.eng := rfl
@[simp] theorem glideCountFalls_req (s : State) : (glideCountFalls s).req = s.req := rfl
@[simp] theorem glideCountFalls_ring (s : State) : (glideCountFalls s).ring = s.ring := rfl
@[simp] theorem glideCountFalls_tx (s : State) : (glideCountFalls s).tx = s.tx := rfl
@[simp] theorem glideCountFalls_port (s : State) : (glideCountFalls s).port = s.port := rfl
@[simp] theorem glideCountFalls_dram (s : State) : (glideCountFalls s).dram = s.dram := rfl
@[simp] theorem glideCountFalls_host (s : State) : (glideCountFalls s).host = s.host := rfl
@[simp] theorem glideCountFalls_ev (s : State) :
    (glideCountFalls s).ev = raiseFlagIf (decide (s.glideCount = 1)) .glidesSettled s.ev := rfl

@[simp] theorem glideCountRises_pending (s : State) : (glideCountRises s).pending = s.pending := rfl
@[simp] theorem glideCountRises_held (s : State) : (glideCountRises s).held = s.held := rfl
@[simp] theorem glideCountRises_lines (s : State) : (glideCountRises s).lines = s.lines := rfl
@[simp] theorem glideCountRises_taps (s : State) : (glideCountRises s).taps = s.taps := rfl
@[simp] theorem glideCountRises_glideCount (s : State) :
    (glideCountRises s).glideCount = s.glideCount + 1 := rfl
@[simp] theorem glideCountRises_eng (s : State) : (glideCountRises s).eng = s.eng := rfl
@[simp] theorem glideCountRises_req (s : State) : (glideCountRises s).req = s.req := rfl
@[simp] theorem glideCountRises_ring (s : State) : (glideCountRises s).ring = s.ring := rfl
@[simp] theorem glideCountRises_tx (s : State) : (glideCountRises s).tx = s.tx := rfl
@[simp] theorem glideCountRises_port (s : State) : (glideCountRises s).port = s.port := rfl
@[simp] theorem glideCountRises_dram (s : State) : (glideCountRises s).dram = s.dram := rfl
@[simp] theorem glideCountRises_host (s : State) : (glideCountRises s).host = s.host := rfl
@[simp] theorem glideCountRises_ev (s : State) : (glideCountRises s).ev = s.ev := rfl

@[simp] theorem removeHead_pending (s : State) : (removeHead s).pending = s.pending := rfl
@[simp] theorem removeHead_held (s : State) : (removeHead s).held = s.held := rfl
@[simp] theorem removeHead_lines (s : State) : (removeHead s).lines = s.lines := rfl
@[simp] theorem removeHead_taps (s : State) : (removeHead s).taps = s.taps := rfl
@[simp] theorem removeHead_glideCount (s : State) : (removeHead s).glideCount = s.glideCount := rfl
@[simp] theorem removeHead_eng (s : State) : (removeHead s).eng = s.eng := rfl
@[simp] theorem removeHead_req (s : State) : (removeHead s).req =
    { s.req with queue := s.req.queue.tail, mark := markOfHead s.eng.state s.req.queue.tail } := rfl
@[simp] theorem removeHead_ring (s : State) : (removeHead s).ring = s.ring := rfl
@[simp] theorem removeHead_tx (s : State) : (removeHead s).tx = s.tx := rfl
@[simp] theorem removeHead_port (s : State) : (removeHead s).port = s.port := rfl
@[simp] theorem removeHead_dram (s : State) : (removeHead s).dram = s.dram := rfl
@[simp] theorem removeHead_host (s : State) : (removeHead s).host = s.host := rfl
@[simp] theorem removeHead_ev (s : State) : (removeHead s).ev = s.ev := rfl

@[simp] theorem pushRecord_pending (r : Record) (s : State) : (pushRecord r s).pending = s.pending := rfl
@[simp] theorem pushRecord_held (r : Record) (s : State) : (pushRecord r s).held = s.held := rfl
@[simp] theorem pushRecord_lines (r : Record) (s : State) : (pushRecord r s).lines = s.lines := rfl
@[simp] theorem pushRecord_taps (r : Record) (s : State) : (pushRecord r s).taps = s.taps := rfl
@[simp] theorem pushRecord_glideCount (r : Record) (s : State) :
    (pushRecord r s).glideCount = s.glideCount := rfl
@[simp] theorem pushRecord_eng (r : Record) (s : State) : (pushRecord r s).eng = s.eng := rfl
@[simp] theorem pushRecord_req (r : Record) (s : State) : (pushRecord r s).req = s.req := rfl
@[simp] theorem pushRecord_ring (r : Record) (s : State) : (pushRecord r s).ring = s.ring ++ [r] := rfl
@[simp] theorem pushRecord_tx (r : Record) (s : State) : (pushRecord r s).tx = s.tx := rfl
@[simp] theorem pushRecord_port (r : Record) (s : State) : (pushRecord r s).port = s.port := rfl
@[simp] theorem pushRecord_dram (r : Record) (s : State) : (pushRecord r s).dram = s.dram := rfl
@[simp] theorem pushRecord_host (r : Record) (s : State) : (pushRecord r s).host = s.host := rfl
@[simp] theorem pushRecord_ev (r : Record) (s : State) :
    (pushRecord r s).ev = raiseFlag .completion s.ev := rfl

@[simp] theorem completeHead_pending (r : Record) (s : State) : (completeHead r s).pending = s.pending := rfl
@[simp] theorem completeHead_held (r : Record) (s : State) : (completeHead r s).held = s.held := rfl
@[simp] theorem completeHead_lines (r : Record) (s : State) : (completeHead r s).lines = s.lines := rfl
@[simp] theorem completeHead_taps (r : Record) (s : State) : (completeHead r s).taps = s.taps := rfl
@[simp] theorem completeHead_glideCount (r : Record) (s : State) :
    (completeHead r s).glideCount = s.glideCount := rfl
@[simp] theorem completeHead_eng (r : Record) (s : State) : (completeHead r s).eng = s.eng := rfl
@[simp] theorem completeHead_req (r : Record) (s : State) : (completeHead r s).req =
    { s.req with queue := s.req.queue.tail, mark := markOfHead s.eng.state s.req.queue.tail } := rfl
@[simp] theorem completeHead_ring (r : Record) (s : State) : (completeHead r s).ring = s.ring ++ [r] := rfl
@[simp] theorem completeHead_tx (r : Record) (s : State) : (completeHead r s).tx = s.tx := rfl
@[simp] theorem completeHead_port (r : Record) (s : State) : (completeHead r s).port = s.port := rfl
@[simp] theorem completeHead_dram (r : Record) (s : State) : (completeHead r s).dram = s.dram := rfl
@[simp] theorem completeHead_host (r : Record) (s : State) : (completeHead r s).host = s.host := rfl
@[simp] theorem completeHead_ev (r : Record) (s : State) :
    (completeHead r s).ev = raiseFlag .completion s.ev := rfl

@[simp] theorem settleTransfer_pending (s : State) : (settleTransfer s).pending = s.pending := rfl
@[simp] theorem settleTransfer_held (s : State) : (settleTransfer s).held = s.held := rfl
@[simp] theorem settleTransfer_lines (s : State) : (settleTransfer s).lines = s.lines := rfl
@[simp] theorem settleTransfer_taps (s : State) : (settleTransfer s).taps = s.taps := rfl
@[simp] theorem settleTransfer_glideCount (s : State) : (settleTransfer s).glideCount = s.glideCount := rfl
@[simp] theorem settleTransfer_eng (s : State) : (settleTransfer s).eng = s.eng := rfl
@[simp] theorem settleTransfer_req (s : State) : (settleTransfer s).req = s.req := rfl
@[simp] theorem settleTransfer_ring (s : State) : (settleTransfer s).ring = s.ring := rfl
@[simp] theorem settleTransfer_tx (s : State) :
    (settleTransfer s).tx = { s.tx with timer := timerKept s.tx (examineClaim s.tx s.port) } := rfl
@[simp] theorem settleTransfer_port (s : State) : (settleTransfer s).port = examineClaim s.tx s.port := rfl
@[simp] theorem settleTransfer_dram (s : State) : (settleTransfer s).dram = s.dram := rfl
@[simp] theorem settleTransfer_host (s : State) : (settleTransfer s).host = s.host := rfl
@[simp] theorem settleTransfer_ev (s : State) : (settleTransfer s).ev = s.ev := rfl

@[simp] theorem settleRestarted_pending (s : State) : (settleRestarted s).pending = s.pending := rfl
@[simp] theorem settleRestarted_held (s : State) : (settleRestarted s).held = s.held := rfl
@[simp] theorem settleRestarted_lines (s : State) : (settleRestarted s).lines = s.lines := rfl
@[simp] theorem settleRestarted_taps (s : State) : (settleRestarted s).taps = s.taps := rfl
@[simp] theorem settleRestarted_glideCount (s : State) : (settleRestarted s).glideCount = s.glideCount := rfl
@[simp] theorem settleRestarted_eng (s : State) : (settleRestarted s).eng = s.eng := rfl
@[simp] theorem settleRestarted_req (s : State) : (settleRestarted s).req = s.req := rfl
@[simp] theorem settleRestarted_ring (s : State) : (settleRestarted s).ring = s.ring := rfl
@[simp] theorem settleRestarted_tx (s : State) :
    (settleRestarted s).tx = { s.tx with timer := timerRestarted s.tx (examineClaim s.tx s.port) } := rfl
@[simp] theorem settleRestarted_port (s : State) : (settleRestarted s).port = examineClaim s.tx s.port := rfl
@[simp] theorem settleRestarted_dram (s : State) : (settleRestarted s).dram = s.dram := rfl
@[simp] theorem settleRestarted_host (s : State) : (settleRestarted s).host = s.host := rfl
@[simp] theorem settleRestarted_ev (s : State) : (settleRestarted s).ev = s.ev := rfl

@[simp] theorem cutTransfer_pending (f : Final) (t : Transfer) (s : State) :
    (cutTransfer f t s).pending = s.pending := rfl
@[simp] theorem cutTransfer_held (f : Final) (t : Transfer) (s : State) :
    (cutTransfer f t s).held = s.held := rfl
@[simp] theorem cutTransfer_lines (f : Final) (t : Transfer) (s : State) :
    (cutTransfer f t s).lines = s.lines := rfl
@[simp] theorem cutTransfer_taps (f : Final) (t : Transfer) (s : State) :
    (cutTransfer f t s).taps = s.taps := rfl
@[simp] theorem cutTransfer_glideCount (f : Final) (t : Transfer) (s : State) :
    (cutTransfer f t s).glideCount = s.glideCount := rfl
@[simp] theorem cutTransfer_eng (f : Final) (t : Transfer) (s : State) : (cutTransfer f t s).eng = s.eng := rfl
@[simp] theorem cutTransfer_req (f : Final) (t : Transfer) (s : State) : (cutTransfer f t s).req = s.req := rfl
@[simp] theorem cutTransfer_ring (f : Final) (t : Transfer) (s : State) :
    (cutTransfer f t s).ring = s.ring := rfl
@[simp] theorem cutTransfer_tx (f : Final) (t : Transfer) (s : State) :
    (cutTransfer f t s).tx = ⟨some { t with final := some f }, [], none⟩ := rfl
@[simp] theorem cutTransfer_port (f : Final) (t : Transfer) (s : State) :
    (cutTransfer f t s).port = { s.port with txClaim := none } := rfl
@[simp] theorem cutTransfer_dram (f : Final) (t : Transfer) (s : State) :
    (cutTransfer f t s).dram = s.dram := rfl
@[simp] theorem cutTransfer_host (f : Final) (t : Transfer) (s : State) :
    (cutTransfer f t s).host = s.host := rfl
@[simp] theorem cutTransfer_ev (f : Final) (t : Transfer) (s : State) : (cutTransfer f t s).ev = s.ev := rfl

@[simp] theorem atStage_pending (st : Stage) (s : State) : (atStage st s).pending = s.pending := rfl
@[simp] theorem atStage_held (st : Stage) (s : State) : (atStage st s).held = s.held := rfl
@[simp] theorem atStage_lines (st : Stage) (s : State) : (atStage st s).lines = s.lines := rfl
@[simp] theorem atStage_taps (st : Stage) (s : State) : (atStage st s).taps = s.taps := rfl
@[simp] theorem atStage_glideCount (st : Stage) (s : State) : (atStage st s).glideCount = s.glideCount := rfl
@[simp] theorem atStage_eng (st : Stage) (s : State) : (atStage st s).eng = { s.eng with stage := st } := rfl
@[simp] theorem atStage_req (st : Stage) (s : State) : (atStage st s).req = s.req := rfl
@[simp] theorem atStage_ring (st : Stage) (s : State) : (atStage st s).ring = s.ring := rfl
@[simp] theorem atStage_tx (st : Stage) (s : State) : (atStage st s).tx = s.tx := rfl
@[simp] theorem atStage_port (st : Stage) (s : State) : (atStage st s).port = s.port := rfl
@[simp] theorem atStage_dram (st : Stage) (s : State) : (atStage st s).dram = s.dram := rfl
@[simp] theorem atStage_host (st : Stage) (s : State) : (atStage st s).host = s.host := rfl
@[simp] theorem atStage_ev (st : Stage) (s : State) : (atStage st s).ev = s.ev := rfl

@[simp] theorem freePort_pending (s : State) : (freePort s).pending = s.pending := rfl
@[simp] theorem freePort_held (s : State) : (freePort s).held = s.held := rfl
@[simp] theorem freePort_lines (s : State) : (freePort s).lines = s.lines := rfl
@[simp] theorem freePort_taps (s : State) : (freePort s).taps = s.taps := rfl
@[simp] theorem freePort_glideCount (s : State) : (freePort s).glideCount = s.glideCount := rfl
@[simp] theorem freePort_eng (s : State) : (freePort s).eng = s.eng := rfl
@[simp] theorem freePort_req (s : State) : (freePort s).req = s.req := rfl
@[simp] theorem freePort_ring (s : State) : (freePort s).ring = s.ring := rfl
@[simp] theorem freePort_tx (s : State) : (freePort s).tx = s.tx := rfl
@[simp] theorem freePort_port (s : State) : (freePort s).port = { s.port with op := none } := rfl
@[simp] theorem freePort_dram (s : State) : (freePort s).dram = s.dram := rfl
@[simp] theorem freePort_host (s : State) : (freePort s).host = s.host := rfl
@[simp] theorem freePort_ev (s : State) : (freePort s).ev = s.ev := rfl

@[simp] theorem countReads_pending (n : Nat) (s : State) : (countReads n s).pending = s.pending := rfl
@[simp] theorem countReads_held (n : Nat) (s : State) : (countReads n s).held = s.held := rfl
@[simp] theorem countReads_lines (n : Nat) (s : State) : (countReads n s).lines = s.lines := rfl
@[simp] theorem countReads_taps (n : Nat) (s : State) : (countReads n s).taps = s.taps := rfl
@[simp] theorem countReads_glideCount (n : Nat) (s : State) : (countReads n s).glideCount = s.glideCount := rfl
@[simp] theorem countReads_eng (n : Nat) (s : State) : (countReads n s).eng = s.eng := rfl
@[simp] theorem countReads_req (n : Nat) (s : State) : (countReads n s).req = s.req := rfl
@[simp] theorem countReads_ring (n : Nat) (s : State) : (countReads n s).ring = s.ring := rfl
@[simp] theorem countReads_tx (n : Nat) (s : State) : (countReads n s).tx = s.tx := rfl
@[simp] theorem countReads_port (n : Nat) (s : State) : (countReads n s).port = s.port := rfl
@[simp] theorem countReads_dram (n : Nat) (s : State) : (countReads n s).dram = s.dram.counted n := rfl
@[simp] theorem countReads_host (n : Nat) (s : State) : (countReads n s).host = s.host := rfl
@[simp] theorem countReads_ev (n : Nat) (s : State) : (countReads n s).ev = s.ev := rfl

@[simp] theorem storeCells_pending (a : Nat) (cells : List Sample) (s : State) :
    (storeCells a cells s).pending = s.pending := rfl
@[simp] theorem storeCells_held (a : Nat) (cells : List Sample) (s : State) :
    (storeCells a cells s).held = s.held := rfl
@[simp] theorem storeCells_lines (a : Nat) (cells : List Sample) (s : State) :
    (storeCells a cells s).lines = s.lines := rfl
@[simp] theorem storeCells_taps (a : Nat) (cells : List Sample) (s : State) :
    (storeCells a cells s).taps = s.taps := rfl
@[simp] theorem storeCells_glideCount (a : Nat) (cells : List Sample) (s : State) :
    (storeCells a cells s).glideCount = s.glideCount := rfl
@[simp] theorem storeCells_eng (a : Nat) (cells : List Sample) (s : State) :
    (storeCells a cells s).eng = s.eng := rfl
@[simp] theorem storeCells_req (a : Nat) (cells : List Sample) (s : State) :
    (storeCells a cells s).req = s.req := rfl
@[simp] theorem storeCells_ring (a : Nat) (cells : List Sample) (s : State) :
    (storeCells a cells s).ring = s.ring := rfl
@[simp] theorem storeCells_tx (a : Nat) (cells : List Sample) (s : State) :
    (storeCells a cells s).tx = s.tx := rfl
@[simp] theorem storeCells_port (a : Nat) (cells : List Sample) (s : State) :
    (storeCells a cells s).port = s.port := rfl
@[simp] theorem storeCells_dram (a : Nat) (cells : List Sample) (s : State) :
    (storeCells a cells s).dram = s.dram.writeMany a cells := rfl
@[simp] theorem storeCells_host (a : Nat) (cells : List Sample) (s : State) :
    (storeCells a cells s).host = s.host := rfl
@[simp] theorem storeCells_ev (a : Nat) (cells : List Sample) (s : State) :
    (storeCells a cells s).ev = s.ev := rfl

@[simp] theorem raiseWritten_pending (n : Nat) (s : State) : (raiseWritten n s).pending = s.pending := rfl
@[simp] theorem raiseWritten_held (n : Nat) (s : State) : (raiseWritten n s).held = s.held := rfl
@[simp] theorem raiseWritten_lines (n : Nat) (s : State) : (raiseWritten n s).lines = s.lines := rfl
@[simp] theorem raiseWritten_taps (n : Nat) (s : State) : (raiseWritten n s).taps = s.taps := rfl
@[simp] theorem raiseWritten_glideCount (n : Nat) (s : State) :
    (raiseWritten n s).glideCount = s.glideCount := rfl
@[simp] theorem raiseWritten_eng (n : Nat) (s : State) : (raiseWritten n s).eng = s.eng := rfl
@[simp] theorem raiseWritten_req (n : Nat) (s : State) : (raiseWritten n s).req = s.req := rfl
@[simp] theorem raiseWritten_ring (n : Nat) (s : State) : (raiseWritten n s).ring = s.ring := rfl
@[simp] theorem raiseWritten_tx (n : Nat) (s : State) :
    (raiseWritten n s).tx = { s.tx with active := s.tx.active.map (Transfer.burstWritten n) } := rfl
@[simp] theorem raiseWritten_port (n : Nat) (s : State) : (raiseWritten n s).port = s.port := rfl
@[simp] theorem raiseWritten_dram (n : Nat) (s : State) : (raiseWritten n s).dram = s.dram := rfl
@[simp] theorem raiseWritten_host (n : Nat) (s : State) : (raiseWritten n s).host = s.host := rfl
@[simp] theorem raiseWritten_ev (n : Nat) (s : State) : (raiseWritten n s).ev = s.ev := rfl

@[simp] theorem grantBurst_pending (op : DramOp) (s : State) : (grantBurst op s).pending = s.pending := rfl
@[simp] theorem grantBurst_held (op : DramOp) (s : State) : (grantBurst op s).held = s.held := rfl
@[simp] theorem grantBurst_lines (op : DramOp) (s : State) : (grantBurst op s).lines = s.lines := rfl
@[simp] theorem grantBurst_taps (op : DramOp) (s : State) : (grantBurst op s).taps = s.taps := rfl
@[simp] theorem grantBurst_glideCount (op : DramOp) (s : State) :
    (grantBurst op s).glideCount = s.glideCount := rfl
@[simp] theorem grantBurst_eng (op : DramOp) (s : State) : (grantBurst op s).eng = s.eng := rfl
@[simp] theorem grantBurst_req (op : DramOp) (s : State) : (grantBurst op s).req = s.req := rfl
@[simp] theorem grantBurst_ring (op : DramOp) (s : State) : (grantBurst op s).ring = s.ring := rfl
@[simp] theorem grantBurst_tx (op : DramOp) (s : State) : (grantBurst op s).tx = s.tx := rfl
@[simp] theorem grantBurst_port (op : DramOp) (s : State) :
    (grantBurst op s).port = beginOp op { s.port with txClaim := none } := rfl
@[simp] theorem grantBurst_dram (op : DramOp) (s : State) : (grantBurst op s).dram = s.dram := rfl
@[simp] theorem grantBurst_host (op : DramOp) (s : State) : (grantBurst op s).host = s.host := rfl
@[simp] theorem grantBurst_ev (op : DramOp) (s : State) : (grantBurst op s).ev = s.ev := rfl

@[simp] theorem readPair_pending (w : BitVec 32) (s : State) : (readPair w s).pending = s.pending := rfl
@[simp] theorem readPair_held (w : BitVec 32) (s : State) : (readPair w s).held = s.held := rfl
@[simp] theorem readPair_lines (w : BitVec 32) (s : State) : (readPair w s).lines = s.lines := rfl
@[simp] theorem readPair_taps (w : BitVec 32) (s : State) : (readPair w s).taps = s.taps := rfl
@[simp] theorem readPair_glideCount (w : BitVec 32) (s : State) :
    (readPair w s).glideCount = s.glideCount := rfl
@[simp] theorem readPair_eng (w : BitVec 32) (s : State) : (readPair w s).eng = s.eng := rfl
@[simp] theorem readPair_req (w : BitVec 32) (s : State) : (readPair w s).req = s.req := rfl
@[simp] theorem readPair_ring (w : BitVec 32) (s : State) : (readPair w s).ring = s.ring := rfl
@[simp] theorem readPair_tx (w : BitVec 32) (s : State) : (readPair w s).tx = s.tx := rfl
@[simp] theorem readPair_port (w : BitVec 32) (s : State) : (readPair w s).port = s.port := rfl
@[simp] theorem readPair_dram (w : BitVec 32) (s : State) : (readPair w s).dram = s.dram := rfl
@[simp] theorem readPair_host (w : BitVec 32) (s : State) :
    (readPair w s).host = { s.host with dataOut := lowHalf w, readLatch := highHalf w } := rfl
@[simp] theorem readPair_ev (w : BitVec 32) (s : State) : (readPair w s).ev = s.ev := rfl

@[simp] theorem loadWriteLatch_pending (v : Half) (s : State) : (loadWriteLatch v s).pending = s.pending := rfl
@[simp] theorem loadWriteLatch_held (v : Half) (s : State) : (loadWriteLatch v s).held = s.held := rfl
@[simp] theorem loadWriteLatch_lines (v : Half) (s : State) : (loadWriteLatch v s).lines = s.lines := rfl
@[simp] theorem loadWriteLatch_taps (v : Half) (s : State) : (loadWriteLatch v s).taps = s.taps := rfl
@[simp] theorem loadWriteLatch_glideCount (v : Half) (s : State) :
    (loadWriteLatch v s).glideCount = s.glideCount := rfl
@[simp] theorem loadWriteLatch_eng (v : Half) (s : State) : (loadWriteLatch v s).eng = s.eng := rfl
@[simp] theorem loadWriteLatch_req (v : Half) (s : State) : (loadWriteLatch v s).req = s.req := rfl
@[simp] theorem loadWriteLatch_ring (v : Half) (s : State) : (loadWriteLatch v s).ring = s.ring := rfl
@[simp] theorem loadWriteLatch_tx (v : Half) (s : State) : (loadWriteLatch v s).tx = s.tx := rfl
@[simp] theorem loadWriteLatch_port (v : Half) (s : State) : (loadWriteLatch v s).port = s.port := rfl
@[simp] theorem loadWriteLatch_dram (v : Half) (s : State) : (loadWriteLatch v s).dram = s.dram := rfl
@[simp] theorem loadWriteLatch_host (v : Half) (s : State) :
    (loadWriteLatch v s).host = { s.host with writeLatch := v } := rfl
@[simp] theorem loadWriteLatch_ev (v : Half) (s : State) : (loadWriteLatch v s).ev = s.ev := rfl

@[simp] theorem enqueue_pending (q : Request) (tag : Tag) (s : State) :
    (enqueue q tag s).pending = s.pending := rfl
@[simp] theorem enqueue_held (q : Request) (tag : Tag) (s : State) : (enqueue q tag s).held = s.held := rfl
@[simp] theorem enqueue_lines (q : Request) (tag : Tag) (s : State) : (enqueue q tag s).lines = s.lines := rfl
@[simp] theorem enqueue_taps (q : Request) (tag : Tag) (s : State) : (enqueue q tag s).taps = s.taps := rfl
@[simp] theorem enqueue_glideCount (q : Request) (tag : Tag) (s : State) :
    (enqueue q tag s).glideCount = s.glideCount := rfl
@[simp] theorem enqueue_eng (q : Request) (tag : Tag) (s : State) : (enqueue q tag s).eng = s.eng := rfl
@[simp] theorem enqueue_req (q : Request) (tag : Tag) (s : State) : (enqueue q tag s).req =
    { s.req with
      queue := s.req.queue ++ [⟨q, tag, false⟩]
      mark := if s.req.queue.isEmpty then markOfHead s.eng.state [⟨q, tag, false⟩] else s.req.mark } := rfl
@[simp] theorem enqueue_ring (q : Request) (tag : Tag) (s : State) : (enqueue q tag s).ring = s.ring := rfl
@[simp] theorem enqueue_tx (q : Request) (tag : Tag) (s : State) : (enqueue q tag s).tx = s.tx := rfl
@[simp] theorem enqueue_port (q : Request) (tag : Tag) (s : State) : (enqueue q tag s).port = s.port := rfl
@[simp] theorem enqueue_dram (q : Request) (tag : Tag) (s : State) : (enqueue q tag s).dram = s.dram := rfl
@[simp] theorem enqueue_host (q : Request) (tag : Tag) (s : State) : (enqueue q tag s).host = s.host := rfl
@[simp] theorem enqueue_ev (q : Request) (tag : Tag) (s : State) : (enqueue q tag s).ev = s.ev := rfl

@[simp] theorem beginService_pending (s : State) : (beginService s).pending = s.pending := rfl
@[simp] theorem beginService_held (s : State) : (beginService s).held = s.held := rfl
@[simp] theorem beginService_lines (s : State) : (beginService s).lines = s.lines := rfl
@[simp] theorem beginService_taps (s : State) : (beginService s).taps = s.taps := rfl
@[simp] theorem beginService_glideCount (s : State) : (beginService s).glideCount = s.glideCount := rfl
@[simp] theorem beginService_eng (s : State) : (beginService s).eng =
    { s.eng with
      state := .servicing
      fseq := s.eng.fseq + 1
      snapshot := s.host.slots
      stale := s.eng.stale ||| staleSlots s
      stage := .glides 0 } := rfl
@[simp] theorem beginService_req (s : State) :
    (beginService s).req = { s.req with mark := armMark (s.eng.fseq + 1) s.req.mark } := rfl
@[simp] theorem beginService_ring (s : State) : (beginService s).ring = s.ring := rfl
@[simp] theorem beginService_tx (s : State) : (beginService s).tx = s.tx := rfl
@[simp] theorem beginService_port (s : State) : (beginService s).port = s.port := rfl
@[simp] theorem beginService_dram (s : State) : (beginService s).dram = s.dram := rfl
@[simp] theorem beginService_host (s : State) : (beginService s).host = { s.host with fresh := 0 } := rfl
@[simp] theorem beginService_ev (s : State) :
    (beginService s).ev = raiseFlagIf (decide (staleSlots s ≠ 0)) .inputStale s.ev := rfl

@[simp] theorem refreshExpires_pending (s : State) : (refreshExpires s).pending = s.pending := rfl
@[simp] theorem refreshExpires_held (s : State) : (refreshExpires s).held = s.held := rfl
@[simp] theorem refreshExpires_lines (s : State) : (refreshExpires s).lines = s.lines := rfl
@[simp] theorem refreshExpires_taps (s : State) : (refreshExpires s).taps = s.taps := rfl
@[simp] theorem refreshExpires_glideCount (s : State) : (refreshExpires s).glideCount = s.glideCount := rfl
@[simp] theorem refreshExpires_eng (s : State) : (refreshExpires s).eng = s.eng := rfl
@[simp] theorem refreshExpires_req (s : State) : (refreshExpires s).req = s.req := rfl
@[simp] theorem refreshExpires_ring (s : State) : (refreshExpires s).ring = s.ring := rfl
@[simp] theorem refreshExpires_tx (s : State) : (refreshExpires s).tx = s.tx := rfl
@[simp] theorem refreshExpires_port (s : State) : (refreshExpires s).port =
    { s.port with
      refreshTimer := some s.port.refint.toNat
      debt := if s.port.debt < 8 then s.port.debt + 1 else s.port.debt
      late := if s.port.debt < 8 then s.port.late else satSucc s.port.late } := rfl
@[simp] theorem refreshExpires_dram (s : State) : (refreshExpires s).dram = s.dram := rfl
@[simp] theorem refreshExpires_host (s : State) : (refreshExpires s).host = s.host := rfl
@[simp] theorem refreshExpires_ev (s : State) :
    (refreshExpires s).ev = raiseFlagIf (decide (8 ≤ s.port.debt)) .refreshLate s.ev := rfl

end Sys2Proof.Machine
end

