-- ==== Sys2Proof/Laws/Dram.lean ====
section
/-! SUPPORT. The DRAM: what a cell holds after a write, and that every memory operation keeps the list of
written cells in its canonical form. -/

namespace Sys2Proof.Machine

/-! ### The list of cells -/

theorem findCell_putCell_same (cells : List (Nat × Sample)) (a : Nat) (v : Sample) :
    findCell (putCell cells a v) a = some v := by
  induction cells with
  | nil => simp [putCell, findCell]
  | cons x cells ih =>
    obtain ⟨b, w⟩ := x
    unfold putCell
    split
    · simp [findCell]
    · split
      · simp [findCell]
      · next hne => simp [findCell, hne, ih]

theorem findCell_putCell_other (cells : List (Nat × Sample)) (a b : Nat) (v : Sample) (h : b ≠ a) :
    findCell (putCell cells a v) b = findCell cells b := by
  induction cells with
  | nil => simp [putCell, findCell, h]
  | cons x cells ih =>
    obtain ⟨c, w⟩ := x
    unfold putCell
    split
    · simp [findCell, h]
    · split
      · next heq => subst heq; simp [findCell, h]
      · simp [findCell, ih]

/-- The canonical form says that each address is below all that follow it. -/
theorem cellsWf_cons (a : Nat) (v : Sample) (cells : List (Nat × Sample)) :
    cellsWf ((a, v) :: cells) = true ↔ (∀ x ∈ cells, a < x.1) ∧ cellsWf cells = true := by
  induction cells generalizing a v with
  | nil => simp [cellsWf]
  | cons y cells ih =>
    obtain ⟨b, w⟩ := y
    constructor
    · intro h
      simp only [cellsWf, Bool.and_eq_true, decide_eq_true_eq] at h
      refine ⟨?_, h.2⟩
      intro x hx
      rcases List.mem_cons.1 hx with rfl | hx
      · exact h.1
      · exact lt_trans h.1 (((ih b w).1 h.2).1 x hx)
    · rintro ⟨h1, h2⟩
      simp only [cellsWf, Bool.and_eq_true, decide_eq_true_eq]
      exact ⟨h1 (b, w) List.mem_cons_self, h2⟩

/-- The addresses after a write are those before it and the one written. -/
theorem mem_putCell_fst (cells : List (Nat × Sample)) (a : Nat) (v : Sample) (x : Nat × Sample)
    (hx : x ∈ putCell cells a v) : x.1 = a ∨ x ∈ cells := by
  induction cells with
  | nil => simp only [putCell, List.mem_singleton] at hx; exact .inl (by rw [hx])
  | cons y cells ih =>
    obtain ⟨b, w⟩ := y
    unfold putCell at hx
    split at hx
    · rcases List.mem_cons.1 hx with rfl | hx
      · exact .inl rfl
      · exact .inr hx
    · split at hx
      · rcases List.mem_cons.1 hx with rfl | hx
        · exact .inl rfl
        · exact .inr (List.mem_cons_of_mem _ hx)
      · rcases List.mem_cons.1 hx with rfl | hx
        · exact .inr List.mem_cons_self
        · exact (ih hx).imp id (List.mem_cons_of_mem _)

/-- A write keeps the canonical form. -/
theorem cellsWf_putCell (cells : List (Nat × Sample)) (a : Nat) (v : Sample) (h : cellsWf cells = true) :
    cellsWf (putCell cells a v) = true := by
  induction cells with
  | nil => rfl
  | cons y cells ih =>
    obtain ⟨b, w⟩ := y
    have hb := (cellsWf_cons b w cells).1 h
    unfold putCell
    split
    · next hlt =>
      refine (cellsWf_cons _ _ _).2 ⟨?_, h⟩
      intro x hx
      rcases List.mem_cons.1 hx with rfl | hx
      · exact hlt
      · exact lt_trans hlt (hb.1 x hx)
    · split
      · next heq => subst heq; exact (cellsWf_cons _ _ _).2 hb
      · next hlt hne =>
        refine (cellsWf_cons _ _ _).2 ⟨?_, ih hb.2⟩
        intro x hx
        rcases mem_putCell_fst _ _ _ _ hx with hx | hx
        · omega
        · exact hb.1 x hx

/-! ### The operations of the port keep the canonical form -/

theorem Dram.wf_write (d : Dram) (a : Nat) (v : Sample) (h : d.wf = true) : (d.write a v).wf = true := by
  unfold Dram.write
  split
  · exact cellsWf_putCell _ _ _ h
  · exact h

theorem Dram.wf_writeMany (d : Dram) (a : Nat) (cells : List Sample) (h : d.wf = true) :
    (d.writeMany a cells).wf = true := by
  induction cells generalizing d a with
  | nil => exact h
  | cons v cells ih => exact ih _ _ (Dram.wf_write _ _ _ h)

theorem Dram.wf_lost (d : Dram) : d.lost.wf = true := rfl

theorem Dram.wf_counted (d : Dram) (n : Nat) : (d.counted n).wf = d.wf := rfl

theorem reset_dram_wf : State.reset.dram.wf = true := rfl

/-! ### What the operations leave -/

@[simp] theorem Dram.write_fitted (d : Dram) (a : Nat) (v : Sample) : (d.write a v).fitted = d.fitted := by
  unfold Dram.write; split <;> rfl

@[simp] theorem Dram.write_epoch (d : Dram) (a : Nat) (v : Sample) : (d.write a v).epoch = d.epoch := by
  unfold Dram.write; split <;> rfl

@[simp] theorem Dram.write_reads (d : Dram) (a : Nat) (v : Sample) : (d.write a v).reads = d.reads := by
  unfold Dram.write; split <;> rfl

@[simp] theorem Dram.writeMany_fitted (d : Dram) (a : Nat) (cells : List Sample) :
    (d.writeMany a cells).fitted = d.fitted := by
  induction cells generalizing d a with
  | nil => rfl
  | cons v cells ih => exact (ih _ _).trans (Dram.write_fitted _ _ _)

/-- A cell written holds the value, if the device has it. -/
theorem Dram.write_find_same (d : Dram) (a : Nat) (v : Sample) (h : a < d.fitted) :
    findCell (d.write a v).cells a = some v := by
  simp only [Dram.write, if_pos h, findCell_putCell_same]

/-- Every other cell holds what it held. -/
theorem Dram.write_find_other (d : Dram) (a b : Nat) (v : Sample) (h : b ≠ a) :
    findCell (d.write a v).cells b = findCell d.cells b := by
  unfold Dram.write
  split
  · exact findCell_putCell_other _ _ _ _ h
  · rfl

/-- A burst changes no cell outside its range. -/
theorem Dram.writeMany_find_outside (d : Dram) (a b : Nat) (cells : List Sample)
    (h : b < a ∨ a + cells.length ≤ b) : findCell (d.writeMany a cells).cells b = findCell d.cells b := by
  induction cells generalizing d a with
  | nil => rfl
  | cons v cells ih =>
    simp only [List.length_cons] at h
    exact (ih _ _ (by omega)).trans (Dram.write_find_other _ _ _ _ (by omega))

/-- A burst's i-th cell holds its i-th value, if the device has it. -/
theorem Dram.writeMany_find_inside (d : Dram) (a i : Nat) (cells : List Sample) (v : Sample)
    (hv : cells[i]? = some v) (hf : a + i < d.fitted) :
    findCell (d.writeMany a cells).cells (a + i) = some v := by
  induction cells generalizing d a i with
  | nil => simp at hv
  | cons w cells ih =>
    cases i with
    | zero =>
      obtain rfl : w = v := by simpa using hv
      exact (Dram.writeMany_find_outside (d.write a w) (a + 1) a cells (.inl (by omega))).trans
        (Dram.write_find_same d a w hf)
    | succ i =>
      have := ih (d.write a w) (a + 1) i (by simpa using hv) (by rw [Dram.write_fitted]; omega)
      rwa [show a + (i + 1) = a + 1 + i by omega]

@[simp] theorem Dram.readMany_length (d : Dram) (a n : Nat) : (d.readMany a n).length = n := by
  simp [Dram.readMany]

end Sys2Proof.Machine
end

