-- ==== Sys2Proof/Laws/Tables.lean ====
section
/-! SUPPORT. The two tables: searches over all lines and taps, and the item whose turn it is. -/

namespace Sys2Proof.Machine

theorem someLine_eq_true (s : State) (p : Fin 32 → LineRec → Bool) :
    someLine s p = true ↔ ∃ l : Fin 32, ∃ r ∈ s.lines[l], p l r = true := by
  simp [someLine, List.any_eq_true, Option.any_eq_true]

theorem someTap_eq_true (s : State) (p : TapRec → Bool) :
    someTap s p = true ↔ ∃ t : Fin 128, ∃ r ∈ s.taps[t], p r = true := by
  simp [someTap, List.any_eq_true, Option.any_eq_true]

theorem tapCount_ne_zero (s : State) (l : Fin 32) :
    tapCount s l ≠ 0 ↔ ∃ t : Fin 128, ∃ r ∈ s.taps[t], r.line = l := by
  rw [tapCount, ← Nat.pos_iff_ne_zero, List.countP_pos_iff]
  simp [Option.any_eq_true]

/-- The first success of a search over all numbers. -/
theorem findSome_finRange_eq_some {n : Nat} {β : Type} (f : Fin n → Option β) (b : β)
    (h : (List.finRange n).findSome? f = some b) :
    ∃ t, f t = some b ∧ ∀ u < t, f u = none := by
  obtain ⟨l₁, t, l₂, hl, hb, hn⟩ := List.findSome?_eq_some_iff.1 h
  refine ⟨t, hb, fun u hu => hn u ?_⟩
  have hs : (l₁ ++ t :: l₂).Pairwise (· < ·) := hl ▸ List.pairwise_lt_finRange n
  have hm : u ∈ l₁ ++ t :: l₂ := hl ▸ List.mem_finRange u
  rcases List.mem_append.1 hm with hm | hm
  · exact hm
  · rcases List.mem_cons.1 hm with rfl | hm
    · exact absurd hu (lt_irrefl _)
    · have := (List.pairwise_cons.1 (List.pairwise_append.1 hs).2.1).1 u hm
      exact absurd hu (not_lt_of_gt this)

/-- A search over all numbers stops at the first success. -/
theorem findSome_finRange_of_first {n : Nat} {β : Type} (f : Fin n → Option β) (t : Fin n) (b : β)
    (hb : f t = some b) (hn : ∀ u < t, f u = none) : (List.finRange n).findSome? f = some b := by
  cases h : (List.finRange n).findSome? f with
  | none => rw [List.findSome?_eq_none_iff] at h; rw [h t (List.mem_finRange t)] at hb; cases hb
  | some c =>
    obtain ⟨u, hu, hn'⟩ := findSome_finRange_eq_some f c h
    rcases lt_trichotomy u t with hlt | rfl | hgt
    · rw [hn u hlt] at hu; cases hu
    · rw [hb] at hu; exact hu.symm
    · rw [hn' t hgt] at hb; cases hb

/-- The tap that the stages take next: the first that counts, from the place on. -/
theorem nextTap_of_first {s : State} {n : Nat} {p : TapRec → Bool} {t : Fin 128} {r : TapRec}
    (hn : n ≤ t.val) (ht : s.taps[t] = some r) (hp : p r = true)
    (h : ∀ u : Fin 128, n ≤ u.val → u < t → ∀ q ∈ s.taps[u], p q = false) :
    nextTap s n p = some (t, r) := by
  apply findSome_finRange_of_first _ t
  · simp only [hn, if_true, ht, Option.bind_some, hp]
  · intro u hu
    by_cases hnu : n ≤ u.val
    · cases hq : s.taps[u] with
      | none => simp
      | some q => simp [h u hnu hu q hq]
    · simp [hnu]

theorem nextTap_of_none {s : State} {n : Nat} {p : TapRec → Bool}
    (h : ∀ u : Fin 128, n ≤ u.val → ∀ q ∈ s.taps[u], p q = false) : nextTap s n p = none := by
  apply List.findSome?_eq_none_iff.2
  intro u _
  by_cases hnu : n ≤ u.val
  · cases hq : s.taps[u] with
    | none => simp
    | some q => simp [h u hnu q hq]
  · simp [hnu]

/-- What a tap found by the search is. -/
theorem nextTap_eq_some {s : State} {n : Nat} {p : TapRec → Bool} {t : Fin 128} {r : TapRec}
    (h : nextTap s n p = some (t, r)) : n ≤ t.val ∧ s.taps[t] = some r ∧ p r = true := by
  obtain ⟨u, hu, _⟩ := findSome_finRange_eq_some _ _ h
  split at hu
  · next hn =>
    cases hq : s.taps[u] with
    | none => simp [hq] at hu
    | some q =>
      rw [hq, Option.bind_some] at hu
      split at hu
      · next hp => cases hu; exact ⟨hn, hq, hp⟩
      · cases hu
  · cases hu

theorem nextLine_of_first {s : State} {n : Nat} {l : Fin 32} {r : LineRec} (hn : n ≤ l.val)
    (hl : s.lines[l] = some r) (hm : r.mode ≠ .idle)
    (h : ∀ k : Fin 32, n ≤ k.val → k < l → ∀ q ∈ s.lines[k], q.mode = .idle) :
    nextLine s n = some (l, r) := by
  apply findSome_finRange_of_first _ l
  · simp only [hn, if_true, hl, Option.bind_some, hm, if_false]
  · intro k hk
    by_cases hnk : n ≤ k.val
    · cases hq : s.lines[k] with
      | none => simp
      | some q => simp [h k hnk hk q hq]
    · simp [hnk]

theorem nextLine_eq_some {s : State} {n : Nat} {l : Fin 32} {r : LineRec}
    (h : nextLine s n = some (l, r)) : n ≤ l.val ∧ s.lines[l] = some r ∧ r.mode ≠ .idle := by
  obtain ⟨u, hu, _⟩ := findSome_finRange_eq_some _ _ h
  split at hu
  · next hn =>
    cases hq : s.lines[u] with
    | none => simp [hq] at hu
    | some q =>
      rw [hq, Option.bind_some] at hu
      split at hu
      · cases hu
      · next hm => cases hu; exact ⟨hn, hq, hm⟩
  · cases hu

/-- The items that the tap-read stage gives are taps and the publish. -/
theorem itemFromTap_cases (s : State) (n : Nat) :
    (∃ t r, itemFromTap s n = .tap t r ∧ nextTap s n (fun _ => true) = some (t, r)) ∨
      (itemFromTap s n = .publish ∧ nextTap s n (fun _ => true) = none) := by
  unfold itemFromTap
  split
  · next t r h => exact .inl ⟨t, r, rfl, h⟩
  · next h => exact .inr ⟨rfl, h⟩

/-- A gliding tap's turn comes only in the glide stage, and it is a GLIDING tap from the place on (R56). -/
theorem currentItem_glide {s : State} {t : Fin 128} {r : TapRec} (h : currentItem s = some (.glide t r)) :
    inService s = true ∧ ∃ n, s.eng.stage = .glides n ∧ n ≤ t.val ∧ s.taps[t] = some r ∧
      r.gliding = true := by
  have tapCase : ∀ n, itemFromTap s n ≠ .glide t r := by
    intro n hn
    rcases itemFromTap_cases s n with ⟨_, _, he, _⟩ | ⟨he, _⟩ <;> rw [he] at hn <;> cases hn
  have lineCase : ∀ n, itemFromLine s n ≠ .glide t r := by
    intro n hn
    unfold itemFromLine at hn
    split at hn
    · cases hn
    · exact tapCase 0 hn
  unfold currentItem at h
  split at h
  · next hi =>
    refine ⟨hi, ?_⟩
    split at h
    · cases h
    · next n hs =>
      simp only [Option.some.injEq] at h
      unfold itemFromGlide at h
      split at h
      · next heq => cases h; exact ⟨n, hs, nextTap_eq_some heq⟩
      · exact absurd h (lineCase 0)
    · next n hs => exact absurd (Option.some.inj h) (lineCase n)
    · next n hs => exact absurd (Option.some.inj h) (tapCase n)
  · cases h

/-- A line's turn comes before the tap reads, and the line is RUNNING or FROZEN (R57). -/
theorem currentItem_line {s : State} {l : Fin 32} {r : LineRec} (h : currentItem s = some (.line l r)) :
    inService s = true ∧ s.lines[l] = some r ∧ r.mode ≠ .idle ∧ s.eng.stage ≠ .rest ∧
      ∀ n, s.eng.stage ≠ .tapReads n := by
  have tapCase : ∀ n, itemFromTap s n ≠ .line l r := by
    intro n hn
    rcases itemFromTap_cases s n with ⟨_, _, he, _⟩ | ⟨he, _⟩ <;> rw [he] at hn <;> cases hn
  have lineCase : ∀ n, itemFromLine s n = .line l r → s.lines[l] = some r ∧ r.mode ≠ .idle := by
    intro n hn
    unfold itemFromLine at hn
    split at hn
    · next heq => cases hn; exact (nextLine_eq_some heq).2
    · exact absurd hn (tapCase 0)
  unfold currentItem at h
  split at h
  · next hi =>
    refine ⟨hi, ?_⟩
    split at h
    · cases h
    · next n hs =>
      simp only [Option.some.injEq] at h
      unfold itemFromGlide at h
      split at h
      · cases h
      · have := lineCase 0 h
        exact ⟨this.1, this.2, by rw [hs]; simp, by rw [hs]; simp⟩
    · next n hs =>
      have := lineCase n (Option.some.inj h)
      exact ⟨this.1, this.2, by rw [hs]; simp, by rw [hs]; simp⟩
    · next n hs => exact absurd (Option.some.inj h) (tapCase n)
  · cases h

/-- A tap's turn at its read: the tap is attached and not before the place (R58). -/
theorem currentItem_tap {s : State} {t : Fin 128} {r : TapRec} (h : currentItem s = some (.tap t r)) :
    inService s = true ∧ s.taps[t] = some r ∧ s.eng.stage ≠ .rest ∧
      ∀ n, s.eng.stage = .tapReads n → n ≤ t.val := by
  have tapCase : ∀ n, itemFromTap s n = .tap t r → n ≤ t.val ∧ s.taps[t] = some r := by
    intro n hn
    rcases itemFromTap_cases s n with ⟨_, _, he, hf⟩ | ⟨he, _⟩ <;> rw [he] at hn <;> cases hn
    exact ⟨(nextTap_eq_some hf).1, (nextTap_eq_some hf).2.1⟩
  have lineCase : ∀ n, itemFromLine s n = .tap t r → s.taps[t] = some r := by
    intro n hn
    unfold itemFromLine at hn
    split at hn
    · cases hn
    · exact (tapCase 0 hn).2
  unfold currentItem at h
  split at h
  · next hi =>
    refine ⟨hi, ?_⟩
    split at h
    · cases h
    · next n hs =>
      simp only [Option.some.injEq] at h
      unfold itemFromGlide at h
      split at h
      · cases h
      · exact ⟨lineCase 0 h, by rw [hs]; simp, by rw [hs]; simp⟩
    · next n hs => exact ⟨lineCase n (Option.some.inj h), by rw [hs]; simp, by rw [hs]; simp⟩
    · next n hs =>
      have := tapCase n (Option.some.inj h)
      refine ⟨this.2, by rw [hs]; simp, fun m hm => ?_⟩
      rw [hs] at hm
      cases hm
      exact this.1
  · cases h

/-- The publish is due only in a service (R59). -/
theorem currentItem_publish {s : State} (h : currentItem s = some .publish) :
    inService s = true ∧ s.eng.stage ≠ .rest := by
  unfold currentItem at h
  split at h
  · next hi =>
    refine ⟨hi, ?_⟩
    split at h
    · cases h
    all_goals next hs => rw [hs]; simp
  · cases h

/-! ### The item whose turn it is, by the turns left -/

theorem nextTap_eq_none {s : State} {n : Nat} {p : TapRec → Bool} (h : nextTap s n p = none) :
    ∀ u : Fin 128, n ≤ u.val → ∀ q, s.taps[u] = some q → p q = false := by
  intro u hu q hq
  have := List.findSome?_eq_none_iff.1 h u (List.mem_finRange u)
  simp only [hu, if_true, hq] at this
  simpa using this

theorem nextLine_eq_none {s : State} {n : Nat} (h : nextLine s n = none) :
    ∀ k : Fin 32, n ≤ k.val → ∀ q, s.lines[k] = some q → q.mode = .idle := by
  intro k hk q hq
  have := List.findSome?_eq_none_iff.1 h k (List.mem_finRange k)
  simp only [hk, if_true, hq] at this
  simpa using this

theorem glideLeft_of_none {s : State} {n : Nat} (hs : s.eng.stage = .glides n)
    (h : nextTap s n TapRec.gliding = none) (u : Fin 128) : glideLeft s u = false := by
  simp only [glideLeft, glideAhead, hs]
  by_cases hu : n ≤ u.val
  · cases hq : s.taps[u] with
    | none => rfl
    | some q => simp [nextTap_eq_none h u hu q hq]
  · simp [hu]

theorem lineLeft_of_none {s : State} {n : Nat}
    (hs : ∀ k, lineAhead s.eng.stage k = true → n ≤ k) (h : nextLine s n = none) (k : Fin 32) :
    lineLeft s k = false := by
  cases ha : lineAhead s.eng.stage k.val with
  | false => simp [lineLeft, ha]
  | true => cases hq : s.lines[k] with
    | none => simp [lineLeft, hq]
    | some q => simp [lineLeft, hq, nextLine_eq_none h k (hs _ ha) q hq]

theorem tapLeft_of_none {s : State} {n : Nat} (hs : ∀ u, tapAhead s.eng.stage u = true → n ≤ u)
    (h : nextTap s n (fun _ => true) = none) (u : Fin 128) : tapLeft s u = false := by
  cases ha : tapAhead s.eng.stage u.val with
  | false => simp [tapLeft, ha]
  | true => cases hq : s.taps[u] with
    | none => simp [tapLeft, hq]
    | some q => simpa using nextTap_eq_none h u (hs _ ha) q hq

/-- What `itemFromTap` finds, when the tap-read stage stands at tap `n`: the first tap left, or the publish. -/
theorem itemFromTap_left {s : State} {n : Nat} (hs : ∀ u, tapAhead s.eng.stage u = decide (n ≤ u)) :
    (∃ t r, itemFromTap s n = .tap t r ∧ s.taps[t] = some r ∧ tapLeft s t = true ∧
      ∀ u < t, tapLeft s u = false) ∨
    (itemFromTap s n = .publish ∧ ∀ u, tapLeft s u = false) := by
  unfold itemFromTap
  cases h : nextTap s n (fun _ => true) with
  | none => exact .inr ⟨rfl, tapLeft_of_none (fun u hu => by simpa [hs] using hu) h⟩
  | some x =>
    obtain ⟨t, r⟩ := x
    obtain ⟨hn, ht, -⟩ := nextTap_eq_some h
    refine .inl ⟨t, r, rfl, ht, by simp [tapLeft, ht, hs, hn], fun u hu => ?_⟩
    obtain ⟨v, hv, hb⟩ := findSome_finRange_eq_some _ _ h
    have hvt : v = t := by
      split at hv
      · cases hq : s.taps[v] with
        | none => simp [hq] at hv
        | some q => simp [hq] at hv; exact hv.1
      · cases hv
    have hbu := hb u (hvt ▸ hu)
    cases hq : s.taps[u] with
    | none => simp [tapLeft, hq]
    | some q => simp [hq] at hbu; simp [tapLeft, hs]; omega

/-- What `itemFromLine` finds, when the line-write stage stands at line `n`: the first line left, or what the
tap-read stage finds. -/
theorem itemFromLine_left {s : State} {n : Nat} (hs : ∀ k, lineAhead s.eng.stage k = decide (n ≤ k)) :
    (∃ l r, itemFromLine s n = .line l r ∧ s.lines[l] = some r ∧ lineLeft s l = true ∧
      ∀ k < l, lineLeft s k = false) ∨
    (itemFromLine s n = itemFromTap s 0 ∧ ∀ k, lineLeft s k = false) := by
  unfold itemFromLine
  cases h : nextLine s n with
  | none => exact .inr ⟨rfl, lineLeft_of_none (fun k hk => by simpa [hs] using hk) h⟩
  | some x =>
    obtain ⟨l, r⟩ := x
    obtain ⟨hn, hl, hm⟩ := nextLine_eq_some h
    refine .inl ⟨l, r, rfl, hl, by simp [lineLeft, hl, hs, hn, hm], fun k hk => ?_⟩
    obtain ⟨v, hv, hb⟩ := findSome_finRange_eq_some _ _ h
    have hvl : v = l := by
      split at hv
      · cases hq : s.lines[v] with
        | none => simp [hq] at hv
        | some q =>
          simp only [hq, Option.bind_some] at hv
          split at hv
          · cases hv
          · exact congrArg Prod.fst (Option.some.inj hv)
      · cases hv
    have hbk := hb k (hvl ▸ hk)
    cases hq : s.lines[k] with
    | none => simp [lineLeft, hq]
    | some q =>
      simp only [hq, Option.bind_some] at hbk
      by_cases hkn : n ≤ k.val
      · simp only [hkn, if_true] at hbk
        split at hbk
        · next hi => simp [lineLeft, hq, hi]
        · cases hbk
      · simp [lineLeft, hs, hkn]

/-- In a service the item whose turn it is is the first turn left, the stages in their order: a gliding tap,
else the first line left, else the first tap left, else the publish (R52). -/
theorem currentItem_cases {s : State} (hi : inService s = true) (hr : s.eng.stage ≠ .rest) :
    (∃ t r, currentItem s = some (.glide t r) ∧ glideLeft s t = true) ∨
    ((∀ u, glideLeft s u = false) ∧
      ((∃ l r, currentItem s = some (.line l r) ∧ s.lines[l] = some r ∧ lineLeft s l = true ∧
          ∀ k < l, lineLeft s k = false) ∨
        ((∀ k, lineLeft s k = false) ∧
          ((∃ t r, currentItem s = some (.tap t r) ∧ s.taps[t] = some r ∧ tapLeft s t = true ∧
              ∀ u < t, tapLeft s u = false) ∨
            ((∀ u, tapLeft s u = false) ∧ currentItem s = some .publish))))) := by
  have taps : ∀ n, (∀ u, tapAhead s.eng.stage u = decide (n ≤ u)) →
      currentItem s = some (itemFromTap s n) →
      (∃ t r, currentItem s = some (.tap t r) ∧ s.taps[t] = some r ∧ tapLeft s t = true ∧
          ∀ u < t, tapLeft s u = false) ∨
        ((∀ u, tapLeft s u = false) ∧ currentItem s = some .publish) := by
    intro n hs hc
    rcases itemFromTap_left hs with ⟨t, r, e, ht, hl, hb⟩ | ⟨e, hn⟩
    · exact .inl ⟨t, r, by rw [hc, e], ht, hl, hb⟩
    · exact .inr ⟨hn, by rw [hc, e]⟩
  cases hs : s.eng.stage with
  | rest => exact absurd hs hr
  | glides n =>
    cases hg : nextTap s n TapRec.gliding with
    | some x =>
      obtain ⟨t, r⟩ := x
      obtain ⟨hn, ht, hgl⟩ := nextTap_eq_some hg
      exact .inl ⟨t, r, by simp [currentItem, hi, hs, itemFromGlide, hg],
        by simp [glideLeft, glideAhead, hs, ht, hgl, hn]⟩
    | none =>
      have hc : currentItem s = some (itemFromLine s 0) := by simp [currentItem, hi, hs, itemFromGlide, hg]
      refine .inr ⟨glideLeft_of_none hs hg, ?_⟩
      rcases itemFromLine_left (s := s) (n := 0) (by simp [hs, lineAhead]) with ⟨l, r, e, hl⟩ | ⟨e, hn⟩
      · exact .inl ⟨l, r, by rw [hc, e], hl⟩
      · exact .inr ⟨hn, taps 0 (by simp [hs, tapAhead]) (by rw [hc, e])⟩
  | lineWrites n =>
    have hc : currentItem s = some (itemFromLine s n) := by simp [currentItem, hi, hs]
    refine .inr ⟨fun u => by simp [glideLeft, glideAhead, hs], ?_⟩
    rcases itemFromLine_left (s := s) (n := n) (by simp [hs, lineAhead]) with ⟨l, r, e, hl⟩ | ⟨e, hn⟩
    · exact .inl ⟨l, r, by rw [hc, e], hl⟩
    · exact .inr ⟨hn, taps 0 (by simp [hs, tapAhead]) (by rw [hc, e])⟩
  | tapReads n =>
    exact .inr ⟨fun u => by simp [glideLeft, glideAhead, hs], .inr ⟨fun k => by simp [lineLeft, lineAhead, hs],
      taps n (by simp [hs, tapAhead]) (by simp [currentItem, hi, hs])⟩⟩

/-- Out of service no item has its turn. -/
theorem currentItem_eq_none {s : State} (h : inService s = false ∨ s.eng.stage = .rest) :
    currentItem s = none := by
  unfold currentItem
  rcases h with h | h <;> simp [h]

end Sys2Proof.Machine
end

