-- ==== Sys2Proof/Laws/Exec.lean ====
section
/-! SUPPORT. The shared shapes of the meanings: the RST# guard, the open head, the two enabling conditions,
the end of an application and the handover. -/

namespace Sys2Proof.Machine

/-! ### RST# -/

theorem whenReleased_of_released {s : State} (h : s.held = false) (f : State → State) :
    whenReleased s f = f s := by
  simp [whenReleased, h]

theorem whenReleased_of_held {s : State} (h : s.held = true) (f : State → State) :
    whenReleased s f = s := by
  simp [whenReleased, h]

/-- What every step of `f` keeps, its guarded form keeps. -/
theorem whenReleased_keeps {P : State → Prop} {s : State} {f : State → State} (h : P s)
    (hf : s.held = false → P (f s)) : P (whenReleased s f) := by
  unfold whenReleased
  split
  · exact h
  · next hh => exact hf (by simpa using hh)

/-! ### Enabling -/

theorem ringFree_eq_true (s : State) : ringFree s = true ↔ s.ring.length < 16 := by simp [ringFree]

theorem applicationEnabled_eq_true (s : State) :
    applicationEnabled s = true ↔
      (s.eng.state = .stopped ∨ s.eng.state = .waiting) ∧ s.ring.length < 16 := by
  simp [applicationEnabled, ringFree]

theorem handoverEnabled_eq_true (s : State) :
    handoverEnabled s = true ↔ s.tx.active = none ∧ s.ring.length < 16 := by
  simp [handoverEnabled, ringFree]

/-- The engine is out of service exactly in STOPPED and WAITING (R43). -/
theorem inService_eq_false (s : State) :
    inService s = false ↔ s.eng.state = .stopped ∨ s.eng.state = .waiting := by
  cases h : s.eng.state <;> simp [inService, h]

/-- What an open head is: the oldest entry, its mark clear (R73, R75). -/
theorem openHead_eq_some (s : State) (q : Request) (tag : Tag) :
    openHead s = some (q, tag) ↔ ∃ rest, s.req.queue = ⟨q, tag, false⟩ :: rest := by
  unfold openHead
  cases hq : s.req.queue with
  | nil => simp
  | cons e rest =>
    obtain ⟨q', tag', c⟩ := e
    cases c <;> simp

/-! ### The end of an application -/

/-- An application completes its head, with OK on the changed machine or with a status on the machine as it
was (R74, R77). -/
theorem finishApplication_cases (kind : Kind) (tag : Tag) (result : Except Status State) (s : State) :
    (∃ s', result = .ok s' ∧
      finishApplication kind tag result s = completeHead ⟨tag, kind, .ok, .frame (s.eng.fseq + 1)⟩ s') ∨
    (∃ status, result = .error status ∧
      finishApplication kind tag result s = completeHead ⟨tag, kind, status, .none⟩ s) := by
  cases result with
  | ok s' => exact .inl ⟨s', rfl, rfl⟩
  | error status => exact .inr ⟨status, rfl, rfl⟩

/-- A change that LINE_DEFINE makes is one line's record, after every check of R15 and R16 has passed. -/
theorem defineLine_eq_ok {l : Fin 32} {base length : Nat} {src : Source} {s s' : State}
    (h : defineLine l base length src s = .ok s') :
    (∀ r ∈ s.lines[l], r.mode = .idle) ∧ base + length ≤ memoryCells s.port.memsize ∧
      overlapsOtherLine l base length s = false ∧
      ((s.lines[l]).isSome = true → tapBeyond l length s = false) ∧
      s' = setLine l (some ⟨base, length, 0, 0, src, .idle⟩) s := by
  unfold defineLine at h
  split at h
  · cases h
  · next h1 =>
    split at h
    · cases h
    · next h2 =>
      split at h
      · cases h
      · next h3 =>
        split at h
        · cases h
        · next h4 =>
          cases h
          refine ⟨?_, by omega, by simpa using h3, ?_, rfl⟩
          · intro r hr
            simp only [Option.mem_def] at hr
            simp only [hr, Option.any_some, decide_eq_true_eq, not_not] at h1
            exact h1
          · intro hs
            rw [hs, Bool.true_and] at h4
            simpa using h4

/-- LINE_RELEASE frees an IDLE line without taps (R17). -/
theorem releaseLine_eq_ok {l : Fin 32} {s s' : State} (h : releaseLine l s = .ok s') :
    (∃ r, s.lines[l] = some r ∧ r.mode = .idle) ∧ tapCount s l = 0 ∧ s' = setLine l none s := by
  unfold releaseLine at h
  split at h
  · cases h
  · next r hr =>
    split at h
    · cases h
    · next h1 =>
      split at h
      · cases h
      · next h2 => cases h; exact ⟨⟨r, hr, by simpa using h1⟩, by simpa using h2, rfl⟩

/-- LINE_START takes an IDLE or FROZEN line, clear of the active transfer, to RUNNING (R18, R19). -/
theorem startLine_eq_ok {l : Fin 32} {m : StartMode} {s s' : State} (h : startLine l m s = .ok s') :
    ∃ r, s.lines[l] = some r ∧ r.mode ≠ .running ∧ transferOverlaps r.base r.length s = false ∧
      s' = setLine l (some (r.started m)) s := by
  unfold startLine at h
  split at h
  · cases h
  · next r hr =>
    split at h
    · cases h
    · next h1 =>
      split at h
      · cases h
      · next h2 => cases h; exact ⟨r, hr, h1, by simpa using h2, rfl⟩

/-- A started line keeps its region and source (R19). -/
theorem LineRec.started_region (m : StartMode) (r : LineRec) :
    (r.started m).base = r.base ∧ (r.started m).length = r.length ∧ (r.started m).source = r.source ∧
      (r.started m).mode = .running := by
  unfold LineRec.started
  split <;> exact ⟨rfl, rfl, rfl, rfl⟩

/-- A handover completes its head with a status and CELLS 0, or accepts the transfer (R83, R84). -/
theorem handOver_cases (tag : Tag) (k : TransferKind) (address count : Nat) (s : State) :
    (∃ status, handoverRefusal address count s = some status ∧
      handOver tag k address count s = completeHead ⟨tag, transferRequestKind k, status, .cells 0⟩ s) ∨
    (handoverRefusal address count s = none ∧
      handOver tag k address count s = acceptTransfer tag k address count s) := by
  unfold handOver
  cases h : handoverRefusal address count s with
  | none => exact .inr ⟨rfl, rfl⟩
  | some status => exact .inl ⟨status, rfl, rfl⟩

/-- A range that no handover refuses lies in the memory and clear of every RUNNING line (R83). -/
theorem handoverRefusal_eq_none {address count : Nat} {s : State}
    (h : handoverRefusal address count s = none) :
    address + count ≤ memoryCells s.port.memsize ∧
      ∀ l : Fin 32, ∀ r ∈ s.lines[l], r.mode = .running →
        rangesOverlap address count r.base r.length = false := by
  unfold handoverRefusal at h
  split at h
  · cases h
  · next h1 =>
    split at h
    · cases h
    · next h2 =>
      refine ⟨by omega, fun l r hr hm => ?_⟩
      by_contra hx
      exact h2 ((someLine_eq_true s _).2 ⟨l, r, hr, by simpa [hm] using hx⟩)

/-! ### Overlap -/

theorem rangesOverlap_comm (b1 n1 b2 n2 : Nat) : rangesOverlap b1 n1 b2 n2 = rangesOverlap b2 n2 b1 n1 := by
  simp only [rangesOverlap, Bool.and_comm]

/-! ### Engine control -/

/-- A tick changes the Frame Engine, the mark state, the fresh flags and the events only (R48). -/
theorem tickArrives_frame (s : State) :
    ∃ eng mark fresh ev, tickArrives s =
      { s with eng := eng, req := { s.req with mark := mark }, host := { s.host with fresh := fresh }, ev := ev } := by
  unfold tickArrives
  split
  · exact ⟨_, _, _, _, rfl⟩
  · exact ⟨_, _, _, _, rfl⟩
  · exact ⟨_, _, _, _, rfl⟩
  · exact ⟨_, _, _, _, rfl⟩
  · exact ⟨_, _, _, _, rfl⟩
  · exact ⟨_, _, _, _, rfl⟩

/-- The tick-source field changes the source, or a host error and its event (R44). -/
theorem sourceRequest_frame (field : BitVec 2) (s : State) :
    ∃ src errors ev, sourceRequest field s =
      { s with eng := { s.eng with tickSource := src }, host := { s.host with errors := errors }, ev := ev } := by
  unfold sourceRequest
  split
  · exact ⟨_, _, _, rfl⟩
  · split
    · exact ⟨_, _, _, rfl⟩
    · split
      · exact ⟨_, _, _, rfl⟩
      · exact ⟨_, _, _, rfl⟩

@[simp] theorem sourceRequest_held (field : BitVec 2) (s : State) : (sourceRequest field s).held = s.held := by
  obtain ⟨_, _, _, h⟩ := sourceRequest_frame field s
  rw [h]

@[simp] theorem stopRequest_held (s : State) : (stopRequest s).held = s.held := by
  unfold stopRequest
  split <;> rfl

@[simp] theorem goRequest_held (s : State) : (goRequest s).held = s.held := by
  unfold goRequest
  split <;> rfl

end Sys2Proof.Machine
end

