-- ==== Sys2Proof/Laws/Flags.lean ====
section
/-! SUPPORT. Flags: the sixteen flags of a predicate, raised events, and host errors. -/

namespace Sys2Proof.Machine

theorem foldl_flags_getLsbD (p : Fin 16 → Bool) (l : List (Fin 16)) (m : BitVec 16) (k : Fin 16) :
    (l.foldl (fun m i => if p i then m ||| BitVec.twoPow 16 i.val else m) m).getLsbD k.val
      = (m.getLsbD k.val || (decide (k ∈ l) && p k)) := by
  induction l generalizing m with
  | nil => simp
  | cons x l ih =>
    rw [List.foldl_cons, ih]
    by_cases hk : k = x
    · subst hk
      cases p k <;> simp
    · have hv : ¬ (k.val = x.val) := fun h => hk (Fin.ext h)
      cases p x <;> simp [hk, hv]

/-- Flag k of `flags16 p` is `p k`. -/
@[simp] theorem flags16_getLsbD (p : Fin 16 → Bool) (k : Fin 16) : (flags16 p).getLsbD k.val = p k := by
  unfold flags16
  rw [foldl_flags_getLsbD]
  simp [List.mem_finRange]

/-- A halfword is 0 when none of its bits is set. -/
theorem half_eq_zero_iff (v : BitVec 16) : v = 0 ↔ ∀ i : Fin 16, v.getLsbD i.val = false := by
  constructor
  · rintro rfl i
    simp
  · intro h
    apply BitVec.eq_of_getLsbD_eq
    intro i hi
    simpa using h ⟨i, hi⟩

@[simp] theorem raiseFlag_mask (e : Event) (ev : EventUnit) : (raiseFlag e ev).mask = ev.mask := rfl

theorem raiseFlag_flags (e : Event) (ev : EventUnit) :
    (raiseFlag e ev).flags = ev.flags ||| BitVec.twoPow 9 (eventBit e) := rfl

@[simp] theorem raiseFlagIf_true (e : Event) (ev : EventUnit) : raiseFlagIf true e ev = raiseFlag e ev := rfl

@[simp] theorem raiseFlagIf_false (e : Event) (ev : EventUnit) : raiseFlagIf false e ev = ev := rfl

@[simp] theorem raiseFlagIf_mask (b : Bool) (e : Event) (ev : EventUnit) :
    (raiseFlagIf b e ev).mask = ev.mask := by
  cases b <;> rfl

/-- Raising an event never clears a flag (R153). -/
theorem raiseFlagIf_keeps_flag (b : Bool) (e : Event) (ev : EventUnit) (i : Nat)
    (h : ev.flags.getLsbD i = true) : (raiseFlagIf b e ev).flags.getLsbD i = true := by
  cases b
  · exact h
  · rw [raiseFlagIf_true, raiseFlag_flags, BitVec.getLsbD_or, h, Bool.true_or]

/-- A host error reaches the host error flags and the Event Unit only (R146). -/
theorem hostError_spec (e : HostError) (s : State) : ∃ errors ev,
    hostError e s = { s with host := { s.host with errors := errors }, ev := ev } := ⟨_, _, rfl⟩

end Sys2Proof.Machine
end

