-- ==== Sys2Proof/Laws/Operands.lean ====
section
/-! SUPPORT. Values that cross the window: pairs, cells, and the range checks on staged fields. -/

namespace Sys2Proof.Machine

theorem joinHalves_toNat (lo hi : Half) : (joinHalves lo hi).toNat = lo.toNat + 65536 * hi.toNat := by
  have := lo.isLt
  rw [joinHalves, BitVec.toNat_append, ← Nat.shiftLeft_add_eq_or_of_lt (by omega), Nat.shiftLeft_eq]
  omega

theorem formSample_toNat (lo hi : Half) :
    (formSample lo hi).toNat = lo.toNat + 65536 * (hi.toNat % 256) := by
  have := lo.isLt
  rw [formSample, BitVec.toNat_append, ← Nat.shiftLeft_add_eq_or_of_lt (by omega), Nat.shiftLeft_eq,
    BitVec.toNat_setWidth]
  omega

/-- A halfword field is admitted with the value it carries (R70). -/
theorem parseFin_eq_some (n : Nat) (h : Half) (x : Fin n) : parseFin n h = some x ↔ h.toNat = x.val := by
  unfold parseFin
  split
  · simp [Fin.ext_iff]
  · simp; omega

/-- A halfword field is refused exactly when it is too large (R70). -/
theorem parseFin_eq_none (n : Nat) (h : Half) : parseFin n h = none ↔ n ≤ h.toNat := by
  unfold parseFin
  split <;> simp <;> omega

theorem parseLength_eq_some (w n : BitVec 32) :
    parseLength w = some n ↔ n = w ∧ 16 ≤ w.toNat ∧ w.toNat ≤ 1048576 := by
  unfold parseLength
  split
  · next h => simp [h, eq_comm]
  · next h => simp only [reduceCtorEq, false_iff]; exact fun hn => h hn.2

theorem parseCount_eq_some (w n : BitVec 32) :
    parseCount w = some n ↔ n = w ∧ 1 ≤ w.toNat ∧ w.toNat ≤ 65536 := by
  unfold parseCount
  split
  · next h => simp [h, eq_comm]
  · next h => simp only [reduceCtorEq, false_iff]; exact fun hn => h hn.2

/-- A kind has a code of 1 to 13 (R68). -/
theorem kindOfCode_kindCode (k : Kind) : kindOfCode (kindCode k) = some k := by cases k <;> rfl

/-- A request that the range checks admit is of the kind they were made for (R68). -/
theorem parseArgs_kind (a : Vector Half 6) (k : Kind) (q : Request) (h : parseArgs a k = some q) :
    requestKind q = k := by
  cases k <;> simp only [parseArgs, Option.bind_eq_bind, Option.bind_eq_some_iff, Option.some.injEq,
    Option.pure_def] at h <;> first
    | (subst h; rfl)
    | (obtain ⟨_, _, rfl⟩ := h; rfl)
    | (obtain ⟨_, _, _, _, rfl⟩ := h; rfl)
    | (obtain ⟨_, _, _, _, _, _, rfl⟩ := h; rfl)

end Sys2Proof.Machine
end

