-- ==== Sys2Proof/Laws/Port.lean ====
section
/-! SUPPORT. The arbiter, the claim condition and the starvation timer. -/

namespace Sys2Proof.Machine

/-! ### The arbiter -/

theorem refreshStands_eq_true (p : MemoryPort) :
    refreshStands p = true ↔ p.refreshOn = true ∧ 1 ≤ p.debt := by
  simp [refreshStands, Nat.one_le_iff_ne_zero]

theorem refreshUrgent_eq_true (p : MemoryPort) :
    refreshUrgent p = true ↔ p.refreshOn = true ∧ 6 ≤ p.debt := by
  simp only [refreshUrgent, Bool.and_eq_true, refreshStands_eq_true, decide_eq_true_eq]
  constructor
  · exact fun h => ⟨h.1.1, h.2⟩
  · exact fun h => ⟨⟨h.1, by omega⟩, h.2⟩

/-- The arbiter grants only when the port is free (R121). -/
theorem arbiter_eq_some {p : MemoryPort} {c : Claimant} (h : arbiter p = some c) :
    p.op = none ∧ bestClaim p = some c := by
  unfold arbiter at h
  split at h
  · next ho => exact ⟨Option.isNone_iff_eq_none.1 ho, h⟩
  · cases h

/-- The engine is granted when its claim is the first in rank (R123). -/
theorem arbiter_engine {p : MemoryPort} {a : Access} {promoted : Bool}
    (hc : p.engineClaim = some ⟨a, promoted⟩) (h : engineIsFirst p promoted) : arbiter p = some .engine := by
  obtain ⟨ho, h⟩ := h
  simp only [arbiter, ho, Option.isNone_none, if_true, bestClaim, hc, Option.any_some, Option.isSome_some]
  rcases h with rfl | h
  · rfl
  · have hu : refreshUrgent p = false := by
      by_contra hx
      exact h ((refreshUrgent_eq_true p).1 (by simpa using hx))
    cases promoted <;> simp [hu]

/-- Refresh is granted when its claim is the first in rank (R123). -/
theorem arbiter_refresh {p : MemoryPort} (h : refreshIsFirst p) : arbiter p = some .refresh := by
  obtain ⟨ho, hr, hd, h⟩ := h
  have hs : refreshStands p = true := (refreshStands_eq_true p).2 ⟨hr, hd⟩
  simp only [arbiter, ho, Option.isNone_none, if_true, bestClaim]
  rcases h with h | ⟨h6, h⟩
  · simp [h, hs]
  · have hu : refreshUrgent p = true := (refreshUrgent_eq_true p).2 ⟨hr, h6⟩
    cases hc : p.engineClaim with
    | none => simp [hs]
    | some c => simp [h c hc, hu]

/-- The Transfer Unit is granted when neither engine nor refresh claims (R123). -/
theorem arbiter_transfer {p : MemoryPort} {c : BurstClaim} (hc : p.txClaim = some c)
    (h : transferIsFirst p) : arbiter p = some .transfer := by
  obtain ⟨ho, he, h⟩ := h
  have hs : refreshStands p = false := by
    by_contra hx
    exact h ((refreshStands_eq_true p).1 (by simpa using hx))
  simp [arbiter, ho, bestClaim, he, hc, hs, refreshUrgent]

/-! ### Claims of the Transfer Unit -/

/-- What a burst claimed of a transfer is: its kind, a first cell within the transfer, and 1 to 16 cells
(R108, R111, R114). -/
theorem nextBurst_spec {tx : TransferUnit} {c : BurstClaim} (h : nextBurst tx = some c) :
    ∃ t, tx.active = some t ∧ t.final = none ∧ c.kind = t.kind ∧ c.size ≤ 16 ∧
      (t.kind = .write → c.address = t.address + t.written ∧ 1 ≤ c.size ∧ c.size ≤ tx.fifo.length) ∧
      (t.kind = .read → c.address = t.address + t.fetched ∧ 1 ≤ c.size ∧
        c.size ≤ 64 - tx.fifo.length ∧ t.fetched + c.size ≤ t.count) ∧
      (∀ v, t.kind = .fill v → c.address = t.address + t.written ∧ 1 ≤ c.size ∧
        t.written + c.size ≤ t.count) := by
  unfold nextBurst at h
  split at h
  · cases h
  · next t ht =>
    refine ⟨t, ht, ?_⟩
    split at h
    · cases h
    · next hf =>
      have hf' : t.final = none := by simpa using hf
      refine ⟨hf', ?_⟩
      split at h <;> split at h
      · next hk hc => cases h; simp [hk]; omega
      · cases h
      · next hk hc => cases h; simp [hk]; omega
      · cases h
      · next hk hc => cases h; simp [hk]; omega
      · cases h

/-- The claim condition does not look at the timer. -/
theorem nextBurst_timer (tx : TransferUnit) (timer : Option Nat) :
    nextBurst { tx with timer := timer } = nextBurst tx := rfl

@[simp] theorem examineClaim_op (tx : TransferUnit) (p : MemoryPort) : (examineClaim tx p).op = p.op := rfl

@[simp] theorem examineClaim_engineClaim (tx : TransferUnit) (p : MemoryPort) :
    (examineClaim tx p).engineClaim = p.engineClaim := rfl

@[simp] theorem examineClaim_txtimeout (tx : TransferUnit) (p : MemoryPort) :
    (examineClaim tx p).txtimeout = p.txtimeout := rfl

@[simp] theorem burstInFlight_examineClaim (tx : TransferUnit) (p : MemoryPort) :
    burstInFlight (examineClaim tx p) = burstInFlight p := rfl

/-- After the claim condition is examined, no burst whose condition holds is left unclaimed (R108, R111,
R114). -/
theorem examineClaim_prompt (tx : TransferUnit) (p : MemoryPort) (hc : (examineClaim tx p).txClaim = none)
    (hb : burstInFlight p = false) : nextBurst tx = none := by
  by_contra hn
  cases hp : p.txClaim with
  | none => simp [examineClaim, hp, hb] at hc; exact hn hc
  | some c => simp [examineClaim, hp] at hc

/-- A claim that stands stays as it was fixed. -/
theorem examineClaim_of_claimed {tx : TransferUnit} {p : MemoryPort} {c : BurstClaim}
    (h : p.txClaim = some c) : (examineClaim tx p).txClaim = some c := by
  simp [examineClaim, h]

/-- After an event the timer runs exactly while its conditions hold (R115). -/
theorem timerKept_isSome (tx : TransferUnit) (p : MemoryPort) :
    (timerKept tx p).isSome = timerRuns tx p := by
  unfold timerKept
  cases h : timerRuns tx p <;> simp

theorem timerRestarted_isSome (tx : TransferUnit) (p : MemoryPort) :
    (timerRestarted tx p).isSome = timerRuns tx p := by
  unfold timerRestarted
  cases h : timerRuns tx p <;> simp

/-! ### What settling leaves -/

/-- The burst claimed next is the one R108, R111 and R114 give, with its first cell and size. -/
theorem nextBurst_eq_some_iff (tx : TransferUnit) (c : BurstClaim) : nextBurst tx = some c ↔ BurstDue tx c := by
  obtain ⟨k, a, n⟩ := c
  unfold nextBurst BurstDue
  cases hx : tx.active with
  | none => simp
  | some x =>
    simp only [Option.some.injEq, exists_eq_left']
    cases hf : x.final with
    | some f => simp
    | none =>
      simp only [Option.isSome_none, Bool.false_eq_true, if_false, true_and]
      cases hk : x.kind with
      | write =>
        simp only
        split
        · simp only [Option.some.injEq, BurstClaim.mk.injEq]
          constructor
          · rintro ⟨rfl, rfl, rfl⟩
            exact ⟨rfl, by omega, rfl, by omega⟩
          · rintro ⟨rfl, h1, rfl, h2⟩
            exact ⟨rfl, rfl, by omega⟩
        · simp only [reduceCtorEq, false_iff]
          rintro ⟨-, h1, -, h2⟩
          omega
      | read =>
        simp only
        split
        · simp only [Option.some.injEq, BurstClaim.mk.injEq]
          constructor
          · rintro ⟨rfl, rfl, rfl⟩
            exact ⟨rfl, by omega, rfl, rfl, by omega⟩
          · rintro ⟨rfl, h1, rfl, rfl, h2⟩
            exact ⟨rfl, rfl, rfl⟩
        · simp only [reduceCtorEq, false_iff]
          rintro ⟨-, h1, -, h2, h3⟩
          omega
      | fill v =>
        simp only
        split
        · simp only [Option.some.injEq, BurstClaim.mk.injEq]
          constructor
          · rintro ⟨rfl, rfl, rfl⟩
            exact ⟨rfl, by omega, rfl, rfl⟩
          · rintro ⟨rfl, h1, rfl, rfl⟩
            exact ⟨rfl, rfl, rfl⟩
        · simp only [reduceCtorEq, false_iff]
          rintro ⟨-, h1, -⟩
          omega

/-- The timer runs exactly under the three conditions of R115. -/
theorem timerRuns_eq_true (s : State) : timerRuns s.tx s.port = true ↔ HostAwaited s := by
  unfold HostAwaited timerRuns isWriting isReading
  cases hx : s.tx.active with
  | none => simp
  | some x => cases hf : x.final <;> cases hk : x.kind <;> simp [hf, hk, and_assoc]

/-- The claim that stands once the claim condition has been examined (R108, R111, R114). -/
theorem examineClaim_eq_some_iff (tx : TransferUnit) (p : MemoryPort) (c : BurstClaim) :
    (examineClaim tx p).txClaim = some c ↔
      p.txClaim = some c ∨ (p.txClaim = none ∧ burstInFlight p = false ∧ BurstDue tx c) := by
  rw [← nextBurst_eq_some_iff]
  unfold examineClaim
  cases hc : p.txClaim <;> cases hb : burstInFlight p <;> simp

theorem settleTransfer_claim (a b : State) (h : a.port.txClaim = b.port.txClaim) :
    ClaimFollows a (settleTransfer b) := fun c => by
  rw [h]
  exact examineClaim_eq_some_iff b.tx b.port c

theorem settleRestarted_claim (a b : State) (h : a.port.txClaim = b.port.txClaim) :
    ClaimFollows a (settleRestarted b) := fun c => by
  rw [h]
  exact examineClaim_eq_some_iff b.tx b.port c

theorem settleTransfer_timer (b : State) : (settleTransfer b).tx.timer =
    if timerRuns b.tx (examineClaim b.tx b.port) then some (b.tx.timer.getD (timerPeriod b.port)) else none := rfl

theorem settleRestarted_timer (b : State) : (settleRestarted b).tx.timer =
    if timerRuns b.tx (examineClaim b.tx b.port) then some (timerPeriod b.port) else none := rfl

end Sys2Proof.Machine
end

