-- ==== Sys2Proof/WellFormed.lean ====
section
/-! DEFINITION. Which commands are well formed: the offset of a read or a whole-location write is one that the
row stands for. The other operands are bounded by their types. -/

namespace Sys2Proof

/-- The offsets whose write is one row of the table by itself. CTRL (00h) and MEMCFG (0Ah) are not among
them: their rows are single fields, and a write of the whole location is a REGISTER_WRITE (log 11). -/
def hasOwnWriteRow (off : Offset) : Bool :=
  off.toNat ∈ [0x04, 0x07, 0x08, 0x09, 0x0B, 0x0C, 0x0D, 0x0E, 0x17, 0x18, 0x1D, 0x1E, 0x1F, 0x63, 0x64]
    || (0x20 ≤ off.toNat && off.toNat ≤ 0x3F)

/-- A command spelled by the row that the table gives it: a read of DATA_LO (1Eh) is the row DATA_LO, and a
write that has a row of its own is that row. -/
def Instr.wf : Instr → Bool
  | .lowHalfRead off => off != 0x1E#7
  | .registerWrite off _ => !hasOwnWriteRow off
  | _ => true

end Sys2Proof
end

