-- ==== Sys2Proof/Tests/Slice0.lean ====
section
/-! SUPPORT. Tests: ill-formed commands are refused, one small check per command with the value the spec
gives, and for every statement with hypotheses a state and operands that meet them. -/

namespace Sys2Proof.Tests

-- One proof at a time: each is checked by the kernel, and proofs waiting for one another hold a thread each.
set_option Elab.async false

open Sys2Proof.Machine

/-! ### Small states -/

/-- The state after a command. -/
def after (c : Instr) (s : State) : State :=
  match exec c s with
  | .next t => t
  | _ => s

/-- The machine with the engine in a state, at a stage, FSEQ 500. -/
def engineAt (e : EngineState) (st : Stage) (s : State) : State :=
  { s with eng := { s.eng with state := e, stage := st, fseq := 500 } }

/-- The machine with one request, tag 7, at the head of the queue. -/
def headed (q : Request) (s : State) : State :=
  { s with req := { s.req with queue := [⟨q, 7, false⟩], mark := markOfHead s.eng.state [⟨q, 7, false⟩] } }

/-- The machine with an active transfer and its FIFO. -/
def moving (t : Transfer) (fifo : List Sample) (s : State) : State :=
  { s with tx := ⟨some t, fifo, none⟩ }

/-- The machine with an operation in flight. -/
def inFlight (op : DramOp) (s : State) : State := { s with port := { s.port with op := some ⟨op, true⟩ } }

/-- The machine with a transfer claim. -/
def claiming (c : BurstClaim) (s : State) : State := { s with port := { s.port with txClaim := some c } }

/-- The machine with an engine claim. -/
def engineClaiming (a : Access) (promoted : Bool) (s : State) : State :=
  { s with port := { s.port with engineClaim := some ⟨a, promoted⟩ } }

/-- The machine with refresh enabled and a debt. -/
def owing (debt : Nat) (s : State) : State :=
  { s with port := { s.port with refreshOn := true, refreshTimer := some 5, debt := debt } }

/-- A ring of `n` records. -/
def ringOf (n : Nat) (s : State) : State := { s with ring := List.replicate n ⟨1, .mark, .ok, .frame 3⟩ }

/-- The machine right after reset. -/
def z : State := State.reset

/-- Line 4 of spec/01's worked sequence, after frame 18. -/
def line4 : LineRec := ⟨1000, 16, 2, 16, .input 3, .running⟩

/-- Tap 9 of spec/01's worked sequence. -/
def tap9 : TapRec := ⟨4, 5, 5, 0, 2, 16384, false⟩

/-- The glide of driver 4 in spec/10 section 10.4: from 150 to 158 by 1. -/
def tap4 : TapRec := ⟨4, 150, 158, 1, 4, 16384, true⟩

/-- A write of 20 cells at 100, with 17 accepted and none written. -/
def write20 : Transfer := ⟨9, .write, 100, 20, 17, 0, 0, 0, none⟩

/-- A read of 200 cells of which 150 were delivered and all fetched (spec/10 section 10.6, tag 70). -/
def read200 : Transfer := ⟨70, .read, 0, 200, 0, 0, 200, 150, none⟩

/-! ### Well-formedness -/

theorem test_wf_refuses_read_of_data_lo : (Instr.lowHalfRead 0x1E).wf = false := by decide

theorem test_wf_refuses_write_with_own_row :
    (Instr.registerWrite 0x08 1).wf = false ∧ (Instr.registerWrite 0x20 1).wf = false ∧
      (Instr.registerWrite 0x3F 1).wf = false := by decide

theorem test_wf_admits_whole_location_writes :
    (Instr.registerWrite 0x00 1).wf = true ∧ (Instr.registerWrite 0x0A 1).wf = true ∧
      (Instr.registerWrite 0x16 1).wf = true ∧ (Instr.lowHalfRead 0x02).wf = true := by decide

/-- The table gives no row any bits. -/
theorem test_no_word_spells_a_command : decodeTableWord 16 0 = none ∧ z.withFetchWord 16 0 = z := by
  exact ⟨rfl, rfl⟩

/-! ### Ticks and engine control (R44 to R50) -/

theorem test_tick_begins_service :
    (after .tickArrival (engineAt .waiting .rest z)).eng.fseq = 501 ∧
      (after .tickArrival (engineAt .waiting .rest z)).eng.state = .servicing := by decide +kernel

/-- The STEP bit is no tick while the source is FCK. -/
theorem test_step_ignored_under_fck :
    after .step (engineAt .waiting .rest z) = engineAt .waiting .rest z := by decide +kernel

theorem test_step_ticks_under_step :
    (after .step { z with eng := { z.eng with tickSource := .step, state := .servicing } }).eng.pendingTick
      = true := by decide +kernel

/-- A second tick in a service is lost (spec/10 section 10.5, time 5). -/
theorem test_lost_tick_counts :
    (after .tickArrival { z with eng := { z.eng with state := .servicing, pendingTick := true } }).eng.overrun
      = 1 := by decide +kernel

theorem test_engine_go : (after .engineGo z).eng.state = .waiting := by decide +kernel

theorem test_engine_stop_in_service :
    (after .engineStop (engineAt .servicing (.glides 0) z)).eng.state = .stopping := by decide +kernel

theorem test_tick_source_busy :
    (after (.tickSource 2) (engineAt .waiting .rest z)).host.errors = 0x100#9 ∧
      (after (.tickSource 2) (engineAt .waiting .rest z)).ev.flags = 0x100#9 := by decide +kernel

/-- Time 9.9 of spec/10 section 10.5 has no pending tick; time 9.1 has one. -/
theorem test_pending_start :
    (after .pendingStart { z with eng := { z.eng with state := .waiting, pendingTick := true } }).eng.pendingTick
      = false := by decide +kernel

/-! ### Resets -/

theorem test_soft_reset_keeps_memsize :
    (after .softReset { z with port := { z.port with memsize := 2 }, ring := [⟨1, .mark, .ok, .none⟩] }).port.memsize
      = 2 := by decide +kernel

theorem test_device_reset_holds :
    (after .deviceReset { z with eng := { z.eng with fseq := 9 } }).held = true ∧
      (after .deviceReset { z with eng := { z.eng with fseq := 9 } }).eng.fseq = 0 := by decide +kernel

theorem test_rst_release : (after .rstRelease { z with held := true }).held = false := by decide +kernel

theorem test_dram_contents_lost :
    (after .dramContentsLost { z with dram := { z.dram with cells := [(5, 1)] } }).dram.cells = [] := by
  decide +kernel

/-! ### The service (R56 to R59) -/

/-- Driver 4's first service of the glide: 151 (spec/10 section 10.4). -/
theorem test_glide_stage_moves_by_step :
    ((after .glideStage (setTap 4 (some tap4) (engineAt .servicing (.glides 0) z))).taps[4]).map TapRec.current
      = some 151 := by decide +kernel

/-- Its eighth service: 158, the count 0 and GLIDES_SETTLED. -/
theorem test_glide_stage_settles :
    (after .glideStage { setTap 4 (some { tap4 with current := 157 }) (engineAt .servicing (.glides 0) z) with
      glideCount := 1 }).ev.flags = 0x010#9 := by decide +kernel

/-- Frame 3 of spec/01's worked sequence writes cell 1,002. -/
theorem test_line_write_stage_claims_head :
    (after .lineWriteStage (setLine 4 (some line4) (engineAt .servicing (.glides 0) z))).port.engineClaim
      = some ⟨.lineWrite 4 1002 0, false⟩ := by decide +kernel

/-- Frame 19 of spec/01's frozen sequence: loop 0 becomes 1. -/
theorem test_line_write_stage_advances_loop :
    ((after .lineWriteStage
      (setLine 4 (some { line4 with mode := .frozen 0 }) (engineAt .servicing (.glides 0) z))).lines[4]).map
        LineRec.mode = some (.frozen 1) := by decide +kernel

/-- Frame 19 of spec/01's frozen sequence: loop 1, effective age 4, cell 1,013. -/
theorem test_tap_read_stage_reads_frozen_cell :
    (after .tapReadStage (setTap 9 (some tap9) (setLine 4 (some { line4 with mode := .frozen 1 })
      (engineAt .servicing (.tapReads 0) z)))).port.engineClaim = some ⟨.tapRead 9 1013, false⟩ := by
  decide +kernel

/-- Frame 17 of spec/01's worked sequence: head 1, delay 5, cell 1,011. -/
theorem test_tap_read_stage_reads_running_cell :
    (after .tapReadStage (setTap 9 (some tap9) (setLine 4 (some { line4 with head := 1 })
      (engineAt .servicing (.tapReads 0) z)))).port.engineClaim = some ⟨.tapRead 9 1011, false⟩ := by
  decide +kernel

/-- Frame 500 of spec/02 section 2.8.1: bus 2 publishes -6,500,002. -/
theorem test_publish_rounds_down : limitToCell (scaledBack (-106496024576)) = BitVec.ofInt 24 (-6500002) := by
  decide +kernel

/-- Frame 501: bus 2 publishes -8,388,608 with its saturation flag set. -/
theorem test_publish_limits :
    (after .publish { engineAt .servicing (.tapReads 128) z with
      eng := { z.eng with
        state := .servicing
        stage := .tapReads 128
        acc := (Vector.replicate 16 0).set 2 (-155648024576) } }).eng.bank.sat = 4 := by decide +kernel

/-! ### The Memory Port -/

theorem test_line_write_grant_advances_head :
    ((after .lineWriteGrant (setLine 4 (some { line4 with head := 15, fill := 15 })
      (engineClaiming (.lineWrite 4 1015 0x123456) false z))).lines[4]).map (fun r => (r.head, r.fill))
      = some (0, 16) := by decide +kernel

theorem test_line_write_completion :
    (after .lineWriteCompletion (inFlight (.lineWrite 4) (engineAt .servicing (.lineWrites 0) z))).eng.stage
      = .lineWrites 5 := by decide +kernel

theorem test_tap_read_grant :
    (after .tapReadGrant (engineClaiming (.tapRead 9 1013) false z)).port.op
      = some ⟨.tapRead 9 1013, true⟩ := by decide +kernel

/-- Tap 10 of spec/02 section 2.8.1: 16,384 times 1,000,000. -/
theorem test_tap_product : tapProduct 16384 (BitVec.ofInt 24 1000000) = 16384000000 ∧
    tapProduct (BitVec.ofInt 16 (-24576)) (BitVec.ofInt 24 5000000) = -122880000000 := by decide +kernel

theorem test_tap_read_completion :
    (after .tapReadCompletion { setTap 9 (some tap9)
      (inFlight (.tapRead 9 1013) (engineAt .servicing (.tapReads 9) z)) with
        dram := { z.dram with cells := [(1013, 3)] } }).eng.acc[2] = 49152 := by decide +kernel

theorem test_write_burst_grant :
    (after .writeBurstGrant (claiming ⟨.write, 100, 16⟩ (moving write20 (List.replicate 17 5) z))).tx.fifo
      = [5] := by decide +kernel

theorem test_write_burst_completion :
    ((after .writeBurstCompletion (inFlight (.writeBurst 100 (List.replicate 16 5))
      (moving write20 [5] z))).tx.active).map Transfer.written = some 16 := by decide +kernel

theorem test_read_burst_grant :
    (after .readBurstGrant (claiming ⟨.read, 0, 16⟩ z)).port.op = some ⟨.readBurst 0 16, true⟩ := by
  decide +kernel

/-- A read of one cell: threshold 1, so its burst raises DATA_REQUEST (R112). -/
theorem test_read_burst_completion :
    (after .readBurstCompletion { inFlight (.readBurst 8 1)
      (moving ⟨1, .read, 8, 1, 0, 0, 0, 0, none⟩ [] z) with
        dram := { z.dram with cells := [(8, 6)] } }).tx.fifo = [6] := by decide +kernel

theorem test_fill_burst_grant :
    (after .fillBurstGrant (claiming ⟨.fill 7, 0, 16⟩ z)).port.op = some ⟨.fillBurst 0 16 7, true⟩ := by
  decide +kernel

theorem test_fill_burst_completion :
    (after .fillBurstCompletion (inFlight (.fillBurst 8 2 7)
      (moving ⟨1, .fill 7, 8, 2, 0, 0, 0, 0, none⟩ [] z))).dram.cells = [(8, 7), (9, 7)] := by decide +kernel

/-- An engine claim that no refresh has passed waits behind an urgent refresh, and one that was promoted does
not (R123). -/
theorem test_refresh_grant :
    (after .refreshGrant (engineClaiming (.tapRead 9 3) false (owing 6 z))).port.op = some ⟨.refresh, true⟩ ∧
      (after .refreshGrant (engineClaiming (.tapRead 9 3) true (owing 6 z))).port.op = none := by
  decide +kernel

theorem test_refresh_completion :
    (after .refreshCompletion (inFlight .refresh (owing 3 z))).port.debt = 2 ∧
      (after .refreshCompletion (inFlight .refresh (owing 0 z))).port.debt = 0 := by decide +kernel

/-- At debt 8 an expiry is late: the counter rises and REFRESH_LATE is raised (R127). -/
theorem test_refresh_timer_expiry :
    (after .refreshTimerExpiry (owing 8 z)).port.late = 1 ∧
      (after .refreshTimerExpiry (owing 8 z)).ev.flags = 0x080#9 := by decide +kernel

/-- The expiry of spec/10 section 10.6: STALLED, 50 cells flushed. -/
theorem test_starvation_timer_expiry :
    (after .starvationTimerExpiry { z with tx := ⟨some read200, List.replicate 50 1, some 1⟩ }).tx
      = ⟨some { read200 with final := some .stalled }, [], none⟩ := by decide +kernel

/-! ### The head of the queue -/

theorem test_cancelled_head :
    (after .cancelledHeadCompletion { z with req := { z.req with
      queue := [⟨.lineFreeze 3, 7, true⟩] } }).ring = [⟨7, .lineFreeze, .cancelled, .none⟩] := by decide +kernel

/-- Step 1 of spec/10 section 10.3. -/
theorem test_line_define :
    (after .lineDefine (headed (.lineDefine 5 100000 48000 (.input 2)) z)).lines[5]
      = some ⟨100000, 48000, 0, 0, .input 2, .idle⟩ := by decide +kernel

theorem test_line_release_with_taps :
    (after .lineRelease (headed (.lineRelease 4) (setTap 9 (some tap9)
      (setLine 4 (some { line4 with mode := .idle }) z)))).ring = [⟨7, .lineRelease, .hasTaps, .none⟩] := by
  decide +kernel

/-- Step 5 of spec/10 section 10.3: KEEP from IDLE fills the line. -/
theorem test_line_start_keep :
    (after .lineStart (headed (.lineStart 5 .keep)
      (setLine 5 (some ⟨100000, 48000, 0, 0, .input 2, .idle⟩) z))).lines[5]
      = some ⟨100000, 48000, 0, 48000, .input 2, .running⟩ := by decide +kernel

theorem test_line_freeze :
    (after .lineFreeze (headed (.lineFreeze 4) (setLine 4 (some line4) z))).lines[4]
      = some { line4 with mode := .frozen 0 } := by decide +kernel

theorem test_line_halt :
    (after .lineHalt (headed (.lineHalt 4) (setLine 4 (some line4) z))).lines[4]
      = some { line4 with mode := .idle } := by decide +kernel

/-- A delay equal to the length is RANGE (R26). -/
theorem test_tap_attach_range :
    (after .tapAttach (headed (.tapAttach 9 4 16 2 16384) (setLine 4 (some line4) z))).ring
      = [⟨7, .tapAttach, .range, .none⟩] := by decide +kernel

theorem test_tap_detach :
    (after .tapDetach { headed (.tapDetach 4) (setTap 4 (some tap4) z) with glideCount := 1 }).taps[4] = none ∧
      (after .tapDetach { headed (.tapDetach 4) (setTap 4 (some tap4) z) with glideCount := 1 }).glideCount
        = 0 := by decide +kernel

theorem test_tap_retarget :
    (after .tapRetarget (headed (.tapRetarget 9 15 1) (setTap 9 (some tap9)
      (setLine 4 (some line4) z)))).glideCount = 1 := by decide +kernel

theorem test_tap_gain :
    ((after .tapGain (headed (.tapGain 9 8192 7) (setTap 9 (some tap9) z))).taps[9]).map
      (fun r => (r.gain, r.bus)) = some (8192, 7) := by decide +kernel

theorem test_mark_stopped :
    (after .mark (headed .mark z)).ring = [⟨7, .mark, .engineStopped, .none⟩] := by decide +kernel

/-- A range that ends at the last cell of MEMSIZE 0 is taken; one cell more is RANGE with CELLS 0 (R83). -/
theorem test_block_write_bounds :
    ((after .blockWrite (headed (.blockWrite 1048575 1) z)).tx.active).isSome = true ∧
      (after .blockWrite (headed (.blockWrite 1048575 2) z)).ring = [⟨7, .blockWrite, .range, .cells 0⟩] := by
  decide +kernel

theorem test_block_read_claims :
    (after .blockRead (headed (.blockRead 10 20) z)).port.txClaim = some ⟨.read, 10, 16⟩ := by decide +kernel

theorem test_block_fill_region_busy :
    (after .blockFill (headed (.blockFill 1015 1 3) (setLine 4 (some line4) z))).ring
      = [⟨7, .blockFill, .regionBusy, .cells 0⟩] := by decide +kernel

/-- The record of spec/10 section 10.6, CANCEL first. -/
theorem test_transfer_completion :
    (after .transferCompletion (moving { read200 with final := some .cancelled } [] z)).ring
      = [⟨70, .blockRead, .cancelled, .cells 150⟩] := by decide +kernel

/-! ### The window -/

/-- LINE_DEFINE (01h) with tag 0Ah staged: line 5, base 100,000, length 48,000, source INPUT 2. -/
theorem test_submit :
    (after (.submit 0) { z with req := { z.req with
      kindTag := 0x010A, args := #v[5, 34464, 1, 48000, 0, 2] } }).req.queue
      = [⟨.lineDefine 5 100000 48000 (.input 2), 10, false⟩] := by decide +kernel

theorem test_submit_bad_field :
    (after (.submit 0) { z with req := { z.req with
      kindTag := 0x010A, args := #v[5, 0, 0, 15, 0, 2] } }).host.errors = 0x004#9 := by decide +kernel

/-- CANCEL 70 of spec/10 section 10.6, in the order CANCEL first. -/
theorem test_cancel :
    (after (.cancel 70) (moving read200 (List.replicate 50 1) z)).tx
      = ⟨some { read200 with final := some .cancelled }, [], none⟩ := by decide +kernel

theorem test_pop : (after (.pop 0) (ringOf 2 z)).ring.length = 1 ∧
    (after (.pop 0) z).host.errors = 0x010#9 := by decide +kernel

theorem test_data_hi_pushes :
    (after (.dataHi 0xFF12) { moving write20 [] z with host := { z.host with writeLatch := 0x3456 } }).tx.fifo
      = [0x123456] := by decide +kernel

theorem test_data_lo_pops :
    (after .dataLo (moving read200 [0x800001] z)).host.dataOut = 0x0001 ∧
      (after .dataLo (moving read200 [0x800001] z)).host.readLatch = 0xFF80 := by decide +kernel

theorem test_low_half_write : (after (.lowHalfWrite .data 0xABCD) z).host.writeLatch = 0xABCD := by
  decide +kernel

theorem test_low_half_read :
    (after (.lowHalfRead 0x02) { z with eng := { z.eng with fseq := 0x00012345 } }).host.dataOut = 0x2345 ∧
      (after (.lowHalfRead 0x02) { z with eng := { z.eng with fseq := 0x00012345 } }).host.readLatch = 1 := by
  decide +kernel

theorem test_input_commit :
    (after (.inputCommit 15 0x0080) z).host.slots[15] = 0x800000 ∧
      (after (.inputCommit 15 0x0080) z).host.fresh = 0x8000 := by decide +kernel

theorem test_out_latch :
    (after (.outLatch 0) { z with eng := { z.eng with bank := { Bank.zero with frame := 77 } } }).host.view.frame
      = 77 := by decide +kernel

/-- Line 4 of spec/01: state RUNNING, source INPUT 3, base 1,000, head 2, fill 16. -/
theorem test_inspect_sel :
    (after (.inspectSel 4) (setLine 4 (some line4) z)).host.inspect = #v[0x32, 1000, 0, 16, 0, 2, 16, 0] := by
  decide +kernel

theorem test_overrun_write :
    (after (.overrunWrite 0) { z with eng := { z.eng with overrun := 9 } }).eng.overrun = 0 := by decide +kernel

theorem test_refstat_keeps_debt :
    (after (.refstat 0) (owing 5 z)).port.debt = 5 := by decide +kernel

theorem test_stalemask :
    (after (.stalemask 0x0003) { z with eng := { z.eng with stale := 0x0006 } }).eng.stale = 0x0004 := by
  decide +kernel

theorem test_hosterr :
    (after (.hosterr 0x0001) { z with host := { z.host with errors := 0x003#9 } }).host.errors = 0x002#9 := by
  decide +kernel

theorem test_events :
    (after (.events 0x0021) { z with ev := ⟨0x023#9, 0⟩ }).ev.flags = 0x002#9 := by decide +kernel

theorem test_evmask : (after (.evmask 0xFFFF) z).ev.mask = 0x1FF#9 := by decide +kernel

theorem test_memsize_too_small :
    (after (.memsize 0) { setLine 4 (some { line4 with base := 1048570 }) z with
      port := { z.port with memsize := 1 } }).host.errors = 0x100#9 := by decide +kernel

theorem test_refresh_enable :
    (after (.refreshEnable true) { z with port := { z.port with refint := 99 } }).port.refreshTimer
      = some 99 := by decide +kernel

theorem test_refint_refuses_zero :
    (after (.refint 0x1200) z).host.errors = 0x100#9 ∧ (after (.refint 0x1200) z).port.refint = 1 := by
  decide +kernel

/-- TXTIMEOUT 2 is 128 periods of TCLK (spec/10 section 10.6). -/
theorem test_txtimeout : (after (.txtimeout 2) (moving read200 [1] z)).tx.timer = some 128 := by decide +kernel

/-- One CTRL write that carries ENGINE_GO and STEP, source STEP named: the engine goes and begins (R47). -/
theorem test_register_write_ctrl :
    (after (.registerWrite 0x00 0x0205) z).eng.state = .servicing ∧
      (after (.registerWrite 0x00 0x0205) z).eng.fseq = 1 := by decide +kernel

theorem test_empty_queue_counts_tclk :
    (tclkPeriod { z with port := { z.port with refreshOn := true, refreshTimer := some 3 } }).port.refreshTimer
      = some 2 := by decide +kernel

/-! ### Witnesses: states and operands that meet the hypotheses of the statements -/

/-- A machine in the middle of a service: line 4 RUNNING, line 5 IDLE, tap 9 STEADY and tap 4 GLIDING on them,
a write moving with a burst claimed, a tap read claimed, and an ARMED MARK at the head. -/
def busy : State :=
  { z with
    lines := (z.lines.set 4 (some line4)).set 5 (some ⟨2000, 200, 0, 0, .bus 1, .idle⟩)
    taps := (z.taps.set 9 (some tap9)).set 4 (some { tap4 with line := 5 })
    glideCount := 1
    eng := { z.eng with state := .servicing, stage := .tapReads 3, fseq := 500 }
    req := { z.req with queue := [⟨.mark, 7, false⟩, ⟨.lineFreeze 4, 8, false⟩], mark := some (.armed 500) }
    ring := [⟨1, .mark, .ok, .frame 3⟩]
    tx := ⟨some write20, List.replicate 17 5, none⟩
    port := { z.port with
      refreshOn := true
      refreshTimer := some 4
      debt := 2
      refint := 9
      engineClaim := some ⟨.tapRead 9 1012, false⟩
      txClaim := some ⟨.write, 100, 16⟩ }
    dram := { z.dram with cells := [(1000, 1), (1001, 2)] }
    pending := [.tapReadGrant] }

theorem witness_StepRunsFrontCommand : busy.pending = .tapReadGrant :: [] := rfl

/-- The timers: both stopped, at 2 periods left and at 1, each beside each. -/
theorem witness_EmptyQueuePassesOneTclkPeriod :
    let at_ (n m : Option Nat) : State :=
      { z with port := { z.port with refreshTimer := n }, tx := ⟨none, [], m⟩ }
    (∀ n m, (at_ n m).pending = [] ∧ (at_ n m).held = false) ∧ ({ z with held := true } : State).held = true ∧
      (∀ n ∈ (at_ none (some 2)).port.refreshTimer, 2 ≤ n) ∧ (∀ m ∈ (at_ none (some 2)).tx.timer, 2 ≤ m) ∧
      (∀ n ∈ (at_ (some 2) none).port.refreshTimer, 2 ≤ n) ∧ (∀ m ∈ (at_ (some 2) none).tx.timer, 2 ≤ m) ∧
      (at_ (some 1) (some 2)).port.refreshTimer = some 1 ∧ (∀ m ∈ (at_ (some 1) (some 2)).tx.timer, 2 ≤ m) ∧
      (at_ (some 2) (some 1)).tx.timer = some 1 ∧ (at_ (some 1) (some 1)).tx.timer = some 1 := by
  refine ⟨fun _ _ => ⟨rfl, rfl⟩, rfl, ?_⟩
  decide +kernel

theorem witness_HeldPartIgnoresCommands :
    ({ z with held := true } : State).held = true ∧ Instr.tickArrival ≠ .dataLo ∧
      Instr.tickArrival ≠ .deviceReset ∧ Instr.tickArrival ≠ .rstRelease ∧
      Instr.tickArrival ≠ .dramContentsLost ∧ ∀ off, Instr.tickArrival ≠ .lowHalfRead off := by
  refine ⟨rfl, ?_, ?_, ?_, ?_, ?_⟩ <;> simp

theorem witness_TickByEngineState :
    z.held = false ∧ TickSource.step ≠ z.eng.tickSource ∧ z.eng.state = .stopped ∧
      (engineAt .stopping (.glides 0) z).eng.state = .stopping ∧
      ({ z with eng := { z.eng with state := .waiting, pendingTick := true } } : State).eng.pendingTick = true ∧
      ({ z with eng := { z.eng with
        state := .servicing, pendingTick := true, overrun := 65535 } } : State).eng.overrun = 65535 ∧
      busy.eng.state = .servicing ∧ busy.eng.pendingTick = false := by decide +kernel

theorem witness_ServiceBegins_tick : Begins .tickArrival (setLine 4 (some line4) (engineAt .waiting .rest z)) ∧
    SlotStale (setLine 4 (some line4) (engineAt .waiting .rest z)) 3 ∧
    ∀ i, ¬ SlotStale (engineAt .waiting .rest z) i := by
  refine ⟨⟨rfl, rfl, .inl ⟨rfl, rfl⟩⟩, ⟨⟨4, line4, rfl, rfl, rfl⟩, rfl⟩, ?_⟩
  rintro i ⟨⟨l, r, hr, _⟩, _⟩
  have hn : ∀ l : Fin 32, (engineAt .waiting .rest z).lines[l] = none := by decide +kernel
  rw [hn l] at hr
  cases hr

theorem witness_ServiceBegins_pending :
    Begins .pendingStart { z with eng := { z.eng with state := .waiting, pendingTick := true } } :=
  ⟨rfl, rfl, .inr ⟨rfl, rfl⟩⟩

theorem witness_GoStopAndSourceByEngineState :
    z.held = false ∧ z.eng.state = .stopped ∧ z.eng.tickSource = .fck ∧ busy.held = false ∧
      busy.eng.state = .servicing ∧ ((2 : BitVec 2) = 2 ∧ TickSource.step = .step) := by decide +kernel

theorem witness_CtrlWriteTakesPartsInOrder :
    z.held = false ∧ (0x000F#16).getLsbD 3 = true ∧ (0x0207#16).getLsbD 3 = false := by decide +kernel

/-- Tap 127 at place 127, and a stage with no gliding tap left. -/
theorem witness_GlideStageMovesNextTap :
    let s := setTap 127 (some tap4) (engineAt .servicing (.glides 127) z)
    s.held = false ∧ inService s = true ∧ s.eng.stage = .glides 127 ∧ s.taps[(127 : Fin 128)] = some tap4 ∧
      tap4.gliding = true ∧
      (∀ u : Fin 128, 127 ≤ u.val → u < 127 → ∀ q ∈ s.taps[u], q.gliding = false) ∧
      ∀ u : Fin 128, 128 ≤ u.val → ∀ q ∈ s.taps[u], q.gliding = false := by decide +kernel

theorem witness_GlideLastsDistanceOverStep : tap4.step ≠ 0 ∧ tap9.step = 0 := by decide

/-- The last line and the last tap, their turns taken at the first place of a service and at their own. -/
theorem witness_StageTurnsClaimOrGoOn :
    let s := setTap 127 (some { tap9 with line := 31 }) (setLine 31 (some line4) (engineAt .servicing (.glides 0) z))
    let q := setLine 31 (some { line4 with mode := .frozen 15 }) (engineAt .servicing (.lineWrites 31) z)
    let t := setTap 127 (some { tap9 with line := 31 })
      (setLine 31 (some { line4 with mode := .idle }) (engineAt .servicing (.glides 0) z))
    s.held = false ∧ inService s = true ∧ engineWaits s.port = false ∧ engineOpInFlight s.port = false ∧
      (∀ u, glideLeft s u = false) ∧ s.lines[(31 : Fin 32)] = some line4 ∧ lineLeft s 31 = true ∧
      (∀ k < 31, lineLeft s k = false) ∧ lineLeft q 31 = true ∧ (∀ k < 31, lineLeft q k = false) ∧
      (q.lines[(31 : Fin 32)]).map LineRec.mode = some (.frozen 15) ∧
      (∀ k, lineLeft t k = false) ∧ tapLeft t 127 = true ∧ (∀ u < 127, tapLeft t u = false) ∧
      line4.tapCell 5 = some 1012 ∧ ({ line4 with fill := 5 } : LineRec).tapCell 5 = none := by decide +kernel

/-- A gliding tap left, a line left, a tap left, an access outstanding, and no service. -/
theorem witness_StageTurnsClaimOrGoOn_order :
    glideLeft (setTap 127 (some tap4) (engineAt .servicing (.glides 127) z)) 127 = true ∧
      (∀ u, glideLeft (setTap 127 (some tap4) (engineAt .servicing (.glides 128) z)) u = false) ∧
      lineLeft (setLine 0 (some line4) (engineAt .stopping (.lineWrites 0) z)) 0 = true ∧
      (∀ k, lineLeft (setLine 0 (some line4) (engineAt .stopping (.lineWrites 1) z)) k = false) ∧
      tapLeft (setTap 127 (some tap9) (engineAt .servicing (.tapReads 127) z)) 127 = true ∧
      (∀ u, tapLeft (setTap 127 (some tap9) (engineAt .servicing (.tapReads 128) z)) u = false) ∧
      engineWaits (inFlight (.lineWrite 0) z).port = true ∧ inService z = false := by decide +kernel

/-- The largest delay, at the smallest and the largest loop. -/
theorem witness_TapReadsBehindHead :
    line4.head < line4.length ∧ 15 < line4.length ∧ line4.mode = .running ∧
      ({ line4 with mode := .frozen 0 } : LineRec).mode = .frozen 0 ∧
      ({ line4 with mode := .frozen 15 } : LineRec).mode = .frozen 15 ∧ 15 < line4.length ∧
      ({ line4 with mode := .idle } : LineRec).mode = .idle := by decide

/-- A service with empty tables at its first place, and one that has passed its last tap. -/
theorem witness_PublishEndsService :
    let s := engineAt .stopping (.glides 0) z
    let q := setTap 127 (some tap9) (engineAt .servicing (.tapReads 128) z)
    s.held = false ∧ inService s = true ∧ s.eng.stage ≠ .rest ∧ engineWaits s.port = false ∧
      (∀ u, glideLeft s u = false) ∧ (∀ k, lineLeft s k = false) ∧ (∀ u, tapLeft s u = false) ∧
      (∀ u, glideLeft q u = false) ∧ (∀ k, lineLeft q k = false) ∧ (∀ u, tapLeft q u = false) ∧
      (publishedBank s.eng).sat = 0 ∧
      (publishedBank { s.eng with acc := (Vector.replicate 16 0).set 15 137438953472 }).sat ≠ 0 := by
  decide +kernel

theorem witness_LineWriteGrantStoresCell :
    let s := setLine 4 (some line4) (engineClaiming (.lineWrite 4 1002 7) true (owing 8 z))
    s.held = false ∧ s.port.engineClaim = some ⟨.lineWrite 4 1002 7, true⟩ ∧ s.lines[(4 : Fin 32)] = some line4 ∧
      engineIsFirst s.port true ∧
      engineIsFirst (engineClaiming (.lineWrite 4 1002 7) false (owing 5 z)).port false ∧
      1002 < s.dram.fitted := by
  unfold engineIsFirst
  decide +kernel

theorem witness_EngineAccessCompletes :
    (inFlight (.lineWrite 31) z).port.op = some ⟨.lineWrite 31, true⟩ ∧
      (inFlight (.tapRead 9 1012) busy).port.op = some ⟨.tapRead 9 1012, true⟩ ∧
      busy.taps[(9 : Fin 128)] = some tap9 ∧
      ({ z with port := { z.port with op := some ⟨.tapRead 9 1012, false⟩ } } : State).port.op
        = some ⟨.tapRead 9 1012, false⟩ ∧ z.held = false ∧ busy.held = false := by decide +kernel

/-- The debts at which the ranks meet: 5 and 6, 0 and 1. -/
theorem witness_GrantsFollowRank :
    isGrant .refreshGrant = true ∧ (inFlight .refresh z).port.op.isSome = true ∧
      engineIsFirst (engineClaiming (.tapRead 9 1012) false (owing 5 z)).port false ∧
      engineIsFirst (engineClaiming (.tapRead 9 1012) true (owing 6 z)).port true ∧
      refreshIsFirst (engineClaiming (.tapRead 9 1012) false (owing 6 z)).port ∧
      refreshIsFirst (owing 1 z).port ∧
      transferIsFirst (claiming ⟨.read, 0, 16⟩ (owing 0 z)).port ∧
      transferIsFirst (claiming ⟨.fill 7, 0, 1⟩ z).port := by
  unfold engineIsFirst refreshIsFirst transferIsFirst
  decide +kernel

/-- No debt, no claim, an urgent refresh before an engine claim, and a refresh before a transfer. -/
theorem witness_GrantsFollowRank_noGrant :
    ¬ refreshIsFirst (owing 0 z).port ∧ z.port.engineClaim = none ∧ z.port.txClaim = none ∧
      ¬ engineIsFirst (engineClaiming (.lineWrite 4 1002 7) false (owing 6 z)).port false ∧
      ¬ engineIsFirst (engineClaiming (.tapRead 9 1012) false (owing 6 z)).port false ∧
      ¬ transferIsFirst (claiming ⟨.read, 0, 16⟩ (owing 1 z)).port := by
  unfold engineIsFirst refreshIsFirst transferIsFirst
  decide +kernel

theorem witness_GrantsFollowRank_writeBurst :
    let s := claiming ⟨.write, 100, 16⟩ (moving write20 (List.replicate 33 5) z)
    s.held = false ∧ s.port.txClaim = some ⟨.write, 100, 16⟩ ∧ transferIsFirst s.port ∧
      isWriting s.tx = true := by
  unfold transferIsFirst
  decide +kernel

theorem witness_StoringBurstCompletes :
    (inFlight (.writeBurst 8388604 [1, 2, 3, 4]) z).port.op = some ⟨.writeBurst 8388604 [1, 2, 3, 4], true⟩ ∧
      (inFlight (.fillBurst 0 2 7) z).port.op = some ⟨.fillBurst 0 2 7, true⟩ ∧
      [7, 7] = List.replicate 2 (7 : Sample) ∧
      ([1, 2, 3, 4] : List Sample)[3]? = some 4 ∧ 8388604 + 3 < z.dram.fitted ∧ z.held = false := by
  decide +kernel

theorem witness_ReadBurstFillsFifo :
    let s := inFlight (.readBurst 0 16) (moving { read200 with fetched := 150 } [] z)
    s.held = false ∧ s.port.op = some ⟨.readBurst 0 16, true⟩ ∧
      s.tx.active = some { read200 with fetched := 150 } ∧ read200.final = none ∧
      (inFlight (.readBurst 0 16) z).tx.active = none := by decide +kernel

/-- The second burst of a read starts at the cell after the first, and the host is awaited once none is due. -/
theorem witness_ReadBurstFillsFifo_next :
    let r : Transfer := { read200 with address := 500, fetched := 0, delivered := 0 }
    (after .readBurstCompletion (inFlight (.readBurst 500 16) (moving r [] z))).port.txClaim
        = some ⟨.read, 516, 16⟩ ∧
      HostAwaited (moving read200 [1] { z with port := { z.port with txtimeout := 1 } }) :=
  ⟨by decide +kernel, ⟨read200, rfl, rfl, .inr rfl⟩, rfl, rfl, by decide⟩

/-- The debts 0, 7 and 8, where the clauses meet. -/
theorem witness_RefreshCompletionAndExpiries_refresh :
    (inFlight .refresh (owing 0 z)).port.op = some ⟨.refresh, true⟩ ∧
      (owing 7 z).port.refreshTimer = some 5 ∧ (owing 7 z).port.debt < 8 ∧
      (owing 8 z).port.refreshTimer = some 5 ∧ ¬ (owing 8 z).port.debt < 8 ∧
      z.port.refreshTimer = none ∧ (owing 8 z).held = false := by decide +kernel

theorem witness_RefreshCompletionAndExpiries_starvation :
    let s : State := { z with tx := ⟨some read200, [1], some 1⟩ }
    s.held = false ∧ s.tx.timer = some 1 ∧ s.tx.active = some read200 ∧ read200.final = none ∧
      z.tx.timer = none := by decide +kernel

theorem witness_CancelledHeadAndMarkLeave :
    let s := ringOf 15 (headed .mark z)
    s.held = false ∧ s.req.queue = [⟨.mark, 7, false⟩] ∧ s.ring.length < 16 ∧
      s.req.mark = some .dueStopped ∧
      (headed .mark (engineAt .waiting .rest z)).req.mark = some .unarmed ∧
      busy.req.queue.head? = some ⟨.mark, 7, false⟩ ∧ busy.req.mark = some (.armed 500) ∧
      ({ busy with req := { busy.req with mark := some (.dueOk 500) } } : State).req.mark
        = some (.dueOk 500) ∧
      ({ z with req := { z.req with queue := [⟨.lineFreeze 3, 7, true⟩] } } : State).req.queue
        = [⟨.lineFreeze 3, 7, true⟩] := by decide +kernel

/-- A full ring, a service, an empty queue, a head of another kind, a marked head, and an active transfer. -/
theorem witness_HeadWaitsForSlotAndService :
    let s := headed (.lineFreeze 3) z
    let m : State := { z with req := { z.req with queue := [⟨.lineFreeze 3, 7, true⟩] } }
    takesRingSlot .blockFill = true ∧ 16 ≤ (ringOf 16 z).ring.length ∧ isApplication .tapGain = true ∧
      inService busy = true ∧ Instr.blockFill ≠ .transferCompletion ∧ z.req.queue = [] ∧
      s.req.queue = [⟨.lineFreeze 3, 7, false⟩] ∧ Instr.lineHalt ≠ headEvent (.lineFreeze 3) ∧
      m.req.queue = [⟨.lineFreeze 3, 7, true⟩] ∧ Instr.lineFreeze ≠ .cancelledHeadCompletion ∧
      (moving write20 [] z).tx.active ≠ none := by decide +kernel

theorem witness_LineDefineChecksThenDefines :
    let s := ringOf 15 (headed (.lineDefine 5 1048560 16 (.input 2)) z)
    s.held = false ∧ s.req.queue = [⟨.lineDefine 5 1048560 16 (.input 2), 7, false⟩] ∧
      s.eng.state = .stopped ∧ s.ring.length < 16 := by decide +kernel

/-- Two ranges of one cell. -/
theorem witness_OverlapIsACommonCell : 1 ≤ 1 ∧ rangesOverlap 7 1 7 1 = true ∧ rangesOverlap 7 1 8 1 = false := by
  decide

theorem witness_LineReleaseFreezeHalt :
    let s := ringOf 15 (setLine 4 (some line4) (engineAt .waiting .rest z))
    s.held = false ∧ s.eng.state = .waiting ∧ s.ring.length < 16 ∧
      (headed (.lineRelease 4) s).req.queue = [⟨.lineRelease 4, 7, false⟩] ∧
      (headed (.lineFreeze 4) s).req.queue = [⟨.lineFreeze 4, 7, false⟩] ∧
      (headed (.lineHalt 4) s).req.queue = [⟨.lineHalt 4, 7, false⟩] := by decide +kernel

theorem witness_LineStartByModeAndState :
    let s := ringOf 15 (headed (.lineStart 31 .keep) (setLine 31 (some { line4 with mode := .idle }) z))
    s.held = false ∧ s.req.queue = [⟨.lineStart 31 .keep, 7, false⟩] ∧ s.eng.state = .stopped ∧
      s.ring.length < 16 ∧ s.lines[(31 : Fin 32)] = some { line4 with mode := .idle } ∧
      (headed (.lineStart 0 .fresh) z).lines[(0 : Fin 32)] = none := by decide +kernel

theorem witness_TapAttachDetachGain_attach :
    let s := ringOf 15 (headed (.tapAttach 127 4 15 2 16384) (setLine 4 (some line4) z))
    s.held = false ∧ s.req.queue = [⟨.tapAttach 127 4 15 2 16384, 7, false⟩] ∧ s.eng.state = .stopped ∧
      s.ring.length < 16 := by decide +kernel

theorem witness_TapAttachDetachGain_detach_gain :
    let s := ringOf 15 (setTap 127 (some tap9) z)
    s.held = false ∧ s.eng.state = .stopped ∧ s.ring.length < 16 ∧
      (headed (.tapDetach 127) s).req.queue = [⟨.tapDetach 127, 7, false⟩] ∧
      (headed (.tapGain 127 5 15) s).req.queue = [⟨.tapGain 127 5 15, 7, false⟩] ∧
      s.taps[(127 : Fin 128)] = some tap9 ∧ s.taps[(0 : Fin 128)] = none := by decide +kernel

/-- The largest target a line of 16 cells admits, and the smallest it refuses. -/
theorem witness_TapRetargetSetsTarget :
    let s := ringOf 15 (setTap 9 (some tap9) (setLine 4 (some line4) z))
    s.held = false ∧ s.eng.state = .stopped ∧ s.ring.length < 16 ∧
      (headed (.tapRetarget 9 15 255) s).req.queue = [⟨.tapRetarget 9 15 255, 7, false⟩] ∧
      s.taps[(9 : Fin 128)] = some tap9 ∧ s.lines[tap9.line] = some line4 ∧ 15 < line4.length ∧
      line4.length ≤ 16 ∧ s.taps[(0 : Fin 128)] = none := by decide +kernel

theorem witness_HandoverRefusesOrAccepts :
    let s := ringOf 15 (headed (.blockFill 1048575 1 9) z)
    s.held = false ∧ s.req.queue = [⟨.blockFill 1048575 1 9, 7, false⟩] ∧ s.tx.active = none ∧
      s.ring.length < 16 ∧ s.tx.fifo = [] ∧ s.tx.timer = none ∧ s.port.txClaim = none ∧
      burstInFlight s.port = false ∧ 1 ≤ (1#32).toNat := by decide +kernel

theorem witness_TransferWritesItsRecord :
    let s := ringOf 15 (moving { read200 with final := some .stalled } [] z)
    s.held = false ∧ s.tx.active = some { read200 with final := some .stalled } ∧ s.ring.length < 16 ∧
      ownBurstInFlight s.port = false ∧ read200.final = none ∧
      ownBurstInFlight (inFlight (.readBurst 0 16) s).port = true := by decide +kernel

theorem witness_CancelAndPop :
    let s := moving read200 [1] z
    let q : State := { z with req := { z.req with
      queue := [⟨.mark, 70, true⟩, ⟨.mark, 70, false⟩, ⟨.mark, 70, false⟩] } }
    s.held = false ∧ s.tx.active = some read200 ∧ read200.final = none ∧
      read200.tag = (0xFF46#16).setWidth 8 ∧
      (∀ x ∈ q.tx.active, x.final ≠ none ∨ x.tag ≠ (70#16).setWidth 8) ∧
      q.req.queue = [⟨.mark, 70, true⟩] ++ ⟨.mark, 70, false⟩ :: [⟨.mark, 70, false⟩] ∧
      (∀ e ∈ z.req.queue, e.tag = (70#16).setWidth 8 → e.cancelled = true) ∧
      (ringOf 1 z).ring = [⟨1, .mark, .ok, .frame 3⟩] ∧ z.ring = [] := by decide +kernel

/-- A FIFO of 63 cells and one of 64; 19 cells of 20 accepted and all 20. -/
theorem witness_DataPortPushesAndPops_push :
    (moving { write20 with accepted := 19 } (List.replicate 63 1) z).tx.fifo.length < 64 ∧
      64 ≤ (moving write20 (List.replicate 64 1) z).tx.fifo.length ∧ write20.final = none ∧
      write20.kind = .write ∧ ({ write20 with accepted := 19 } : Transfer).accepted < write20.count ∧
      write20.count ≤ ({ write20 with accepted := 20 } : Transfer).accepted ∧ z.tx.active = none ∧
      z.held = false := by decide +kernel

theorem witness_DataPortPushesAndPops_pop :
    let s := moving { read200 with delivered := 199 } [1] z
    s.held = false ∧ s.tx.active = some { read200 with delivered := 199 } ∧ read200.final = none ∧
      read200.kind = .read ∧ s.tx.fifo = [1] ∧ z.tx.fifo = [] ∧
      (∀ x ∈ (moving write20 [1] z).tx.active, x.final ≠ none ∨ x.kind ≠ .read) := by decide +kernel

/-- The largest region that ends at the last cell. -/
theorem witness_InspectionHoldsTheRecord :
    (⟨7340032, 1048576, 1048575, 1048576, .bus 15, .frozen 1048575⟩ : LineRec).inRange 8388608 = true ∧
      128 ≤ 128 ∧ 1048575 < 1048576 ∧ 255 ≤ 255 := by decide

theorem witness_StatusReadsGiveTheirFields :
    WithinCapacities (ringOf 16 (owing 8 z)) ∧ (ringOf 16 (owing 8 z)).held = false ∧
      latchedPair (0x64#7).toNat z = none ∧ isLatchedHigh (0x64#7).toNat = false ∧
      (ringOf 16 z).ring.head? = some ⟨1, .mark, .ok, .frame 3⟩ ∧ z.ring = [] ∧ z.glideCount ≤ 128 := by
  unfold WithinCapacities
  decide +kernel

theorem witness_PairReadsThroughLatch :
    latchedPair (0x20#7).toNat z = some 0 ∧ latchedPair (0x5E#7).toNat z = some 0 ∧
      (0x61#7).toNat ∈ [0x03, 0x1C, 0x1F, 0x61] ∧
      (0x21 ≤ (0x5F#7).toNat ∧ (0x5F#7).toNat ≤ 0x5F ∧ (0x5F#7).toNat % 2 = 1) ∧ z.ring = [] ∧
      (ringOf 1 z).ring = [⟨1, .mark, .ok, .frame 3⟩] ∧ z.held = false := by decide +kernel

theorem witness_RefintTakesEffectAtNextStart :
    z.held = false ∧ (0xFF00#16).toNat % 256 = 0 ∧ (0x0001#16).toNat % 256 ≠ 0 ∧
      (owing 1 z).port.refreshTimer ≠ none ∧ z.port.refreshOn = false := by decide +kernel

/-- The offsets at the ends of the ignored ranges. -/
theorem witness_RegisterWritesStoreOrClear :
    z.held = false ∧ (0x40#7).toNat ≤ 0x62 ∧ 0x40 ≤ (0x62#7).toNat ∧ 0x65 ≤ (0x65#7).toNat ∧
      0x65 ≤ (0x7F#7).toNat := by decide +kernel

theorem witness_SoftResetKeepsMemory :
    busy.held = false ∧ z.port.op = none ∧ (inFlight .refresh z).port.op = some ⟨.refresh, true⟩ := by
  decide +kernel

theorem witness_DramReadsLastWrite : 8388607 < z.dram.fitted ∧ (0 : Nat) ≠ 8388607 := by decide

/-- Code 0 and code 14 are no kinds, 13 is; a full queue holds 8. -/
theorem witness_SubmitChecksThenQueues :
    z.held = false ∧ (0x0000#16).toNat / 256 = 0 ∧ 13 < (0x0E00#16).toNat / 256 ∧
      ¬ 13 < (0x0D00#16).toNat / 256 ∧
      8 ≤ ({ z with req := { z.req with queue := List.replicate 8 ⟨.mark, 1, false⟩ } } : State).req.queue.length
        := by decide +kernel

theorem witness_SlotsAndViews : busy.held = false ∧ 32768 ≤ (0x807F#16).toNat ∧ ¬ 32768 ≤ (0x7FFF#16).toNat := by
  decide +kernel

theorem witness_MemcfgFields :
    z.held = false ∧ ∃ t, exec (.memsize ((0x0103#16).extractLsb' 0 2)) z = .next t ∧ t.port.memsize = 3 :=
  ⟨rfl, _, rfl, by decide +kernel⟩

theorem witness_TxtimeoutStartsOrStopsTimer : busy.held = false ∧ isReading (moving read200 [1] z).tx = true := by
  decide +kernel

theorem witness_EventsAndHostErrorsRise : eventBit .hostError < 9 ∧ hostErrorBit .configBusy < 9 := by decide

theorem witness_EventsWriteClears : ∃ t, exec (.events 0xFFFF) z = .next t ∧ (8 : Nat) < 9 := ⟨_, rfl, by decide⟩

theorem witness_MaskActsOnIrqOnly :
    z.held = false ∧ irq { z with ev := ⟨0x100#9, 0x100#9⟩ } = true ∧
      irq { z with ev := ⟨0x100#9, 0x0FF#9⟩ } = false := by decide +kernel

theorem witness_HosterrWriteClears : busy.held = false ∧ (0x0100#16).getLsbD (hostErrorBit .configBusy) = true := by
  decide +kernel

/-! ### Witnesses for the invariants: `busy` meets each of them, and its step goes on -/

theorem witness_step : ∃ t, step busy = .next t ∧ t.port.op = some ⟨.tapRead 9 1012, true⟩ := ⟨_, rfl, rfl⟩

theorem witness_StepKeepsRegionsDisjoint : LinesSound busy := by
  unfold LinesSound
  decide +kernel

theorem witness_StepKeepsTapsOnTheirLines : TapsSound busy := by
  unfold TapsSound
  decide +kernel

theorem witness_StepKeepsGlideCount : GlidesSound busy := by
  unfold GlidesSound
  decide +kernel

theorem witness_StepKeepsTransferOffRunningLines : TransferClearOfRunningLines busy := by
  unfold TransferClearOfRunningLines
  decide +kernel

theorem witness_StepKeepsAccumulatorsIn48Bits : EngineSound busy := by
  unfold EngineSound
  decide +kernel

theorem witness_StepKeepsTransferAccounts : TransferSound busy := by
  unfold TransferSound
  decide +kernel

theorem witness_StepKeepsClaimsPrompt : TransferPrompt busy := by
  unfold TransferPrompt
  decide +kernel

theorem witness_StepKeepsMarkState : MarkSound busy := by
  refine ⟨by decide +kernel, ?_, by decide +kernel⟩
  intro n hn
  have h : some (MarkState.armed 500) = some (MarkState.armed n) := hn
  cases h
  decide +kernel

theorem witness_StepKeepsControlInvariants :
    WithinCapacities busy ∧ StoppedHoldsNoTick busy ∧ RefreshSound busy ∧ busy.dram.wf = true := by
  unfold WithinCapacities StoppedHoldsNoTick RefreshSound
  decide +kernel

theorem witness_StepKeepsControlInvariants_held : HeldAtReset { z with held := true } ∧
    ({ z with held := true } : State).held = true :=
  ⟨fun _ => ⟨rfl, rfl, rfl, rfl, rfl, rfl, rfl, rfl, rfl, rfl⟩, rfl⟩

theorem witness_RequestsAreConserved :
    ∃ t, exec .cancelledHeadCompletion { z with req := { z.req with
      queue := [⟨.lineFreeze 3, 7, true⟩] } } = .next t ∧ outstanding t = 1 := ⟨_, rfl, by decide +kernel⟩

/-- SUBMIT and POP as writes of whole locations, and a CTRL write without SOFT_RESET. -/
theorem witness_RequestsAreConserved_kinds :
    isSubmission (.registerWrite 0x17 0) ∧ isPop (.registerWrite 0x1D 0) ∧ ¬ isReset (.registerWrite 0x00 0x0007) ∧
      ¬ isSubmission (.registerWrite 0x00 0x0007) ∧ ¬ isPop (.registerWrite 0x00 0x0007) := by
  refine ⟨.inr ⟨0, rfl⟩, .inr ⟨0, rfl⟩, ?_, ?_, ?_⟩
  · rintro (h | h | ⟨v, hv, h⟩) <;> cases h
    exact absurd hv (by decide)
  · rintro (⟨v, h⟩ | ⟨v, h⟩) <;> cases h
  · rintro (⟨v, h⟩ | ⟨v, h⟩) <;> cases h

theorem witness_GrantedOperationIsNeverCut :
    ∃ t, exec .softReset (inFlight .refresh busy) = .next t ∧
      Instr.softReset ≠ completionOf .refresh ∧ t.port.op = some ⟨.refresh, false⟩ :=
  ⟨_, rfl, by decide, rfl⟩

theorem witness_ServiceOwnsTheTables :
    inService busy = true ∧ ∃ t, exec .engineStop busy = .next t ∧ t.eng.state = .stopping :=
  ⟨by decide +kernel, _, rfl, rfl⟩

end Sys2Proof.Tests
end

section
/-! LINE_START at the head of the queue, by the line it names (R18, R19). -/

namespace Sys2Proof.Machine

/-- An uncancelled LINE_START at the head is applied with the checks of `startLine`, while the engine is
STOPPED or WAITING and a ring slot is free (R76). -/
theorem exec_lineStart_of_head {s : State} {l : Fin 32} {m : StartMode} {tag : Tag} {rest : List Entry}
    (hheld : s.held = false) (hqueue : s.req.queue = ⟨.lineStart l m, tag, false⟩ :: rest)
    (heng : s.eng.state = .stopped ∨ s.eng.state = .waiting) (hring : s.ring.length < 16) :
    exec .lineStart s = .next (finishApplication .lineStart tag (startLine l m s) s) := by
  have hexec : exec .lineStart s = execLineStart s := rfl
  have hhead : openHead s = some (.lineStart l m, tag) := (openHead_eq_some s _ _).2 ⟨rest, hqueue⟩
  have hen : applicationEnabled s = true := (applicationEnabled_eq_true s).2 ⟨heng, hring⟩
  rw [hexec, execLineStart, whenReleased_of_released hheld]
  simp only [hhead, hen, if_true]

theorem startLine_of_undefined {l : Fin 32} {m : StartMode} {s : State} (h : s.lines[l] = none) :
    startLine l m s = .error .wrongState := by
  simp only [startLine, h]

/-- The checks of LINE_START on a defined line, in R18's order. -/
theorem startLine_of_defined {l : Fin 32} {m : StartMode} {s : State} {r : LineRec}
    (h : s.lines[l] = some r) :
    startLine l m s =
      if r.mode = .running then .error .wrongState
      else if transferOverlaps r.base r.length s then .error .regionBusy
      else .ok (setLine l (some (r.started m)) s) := by
  simp only [startLine, h]

/-- R19's table: FRESH empties the line, KEEP declares an IDLE line's whole region valid and leaves a FROZEN
line's fill. -/
theorem LineRec.started_eq (m : StartMode) (r : LineRec) :
    r.started m = { r with
      mode := .running
      head := if m = .fresh then 0 else r.head
      fill := if m = .fresh then 0 else if r.mode = .idle then r.length else r.fill } := by
  obtain ⟨base, length, head, fill, source, mode⟩ := r
  cases m with
  | fresh => rfl
  | keep => cases mode <;> rfl

/-- R18's second check, as a search over the active transfer. -/
theorem transferOverlaps_eq_any (base length : Nat) (s : State) :
    transferOverlaps base length s =
      s.tx.active.any (fun x => rangesOverlap base length x.address x.count) := rfl

@[simp] theorem finishApplication_ok (kind : Kind) (tag : Tag) (s s' : State) :
    finishApplication kind tag (.ok s') s =
      completeHead ⟨tag, kind, .ok, .frame (s.eng.fseq + 1)⟩ s' := rfl

@[simp] theorem finishApplication_error (kind : Kind) (tag : Tag) (status : Status) (s : State) :
    finishApplication kind tag (.error status) s = completeHead ⟨tag, kind, status, .none⟩ s := rfl

/-- Settles O26: the head reaches `startLine`, whose refusals leave the machine as it was but for the head and
its record, and whose acceptance sets the line to R19's record. -/
theorem lineStartByModeAndState : Obligations.LineStartByModeAndState := by
  unfold Obligations.LineStartByModeAndState
  intro s l m tag rest hheld hqueue heng hring
  rw [exec_lineStart_of_head hheld hqueue heng hring]
  refine ⟨fun hnone => ?undefined, fun r hsome => ?defined⟩
  case undefined => rw [startLine_of_undefined hnone, finishApplication_error]
  case defined =>
    rw [startLine_of_defined hsome, ← transferOverlaps_eq_any]
    by_cases hrun : r.mode = .running
    · simp only [if_pos hrun, finishApplication_error]
    by_cases hbusy : transferOverlaps r.base r.length s = true
    · simp only [if_neg hrun, if_pos hbusy, finishApplication_error]
    · simp only [if_neg hrun, if_neg hbusy, finishApplication_ok, setLine, LineRec.started_eq]

end Sys2Proof.Machine
end

section
/-! TAP_RETARGET at the head of the queue, by the tap it names, and the glide count after it (R28, R31). -/

namespace Sys2Proof.Machine

/-- An uncancelled TAP_RETARGET at the head is applied with the checks of `retargetTap`, while the engine is
STOPPED or WAITING and a ring slot is free (R76). -/
theorem exec_tapRetarget_of_head {s : State} {t : Fin 128} {target : BitVec 32} {k : Nat} {tag : Tag}
    {rest : List Entry} (hheld : s.held = false)
    (hqueue : s.req.queue = ⟨.tapRetarget t target k, tag, false⟩ :: rest)
    (heng : s.eng.state = .stopped ∨ s.eng.state = .waiting) (hring : s.ring.length < 16) :
    exec .tapRetarget s =
      .next (finishApplication .tapRetarget tag (retargetTap t target.toNat k s) s) := by
  have hexec : exec .tapRetarget s = execTapRetarget s := rfl
  have hhead : openHead s = some (.tapRetarget t target k, tag) := (openHead_eq_some s _ _).2 ⟨rest, hqueue⟩
  have hen : applicationEnabled s = true := (applicationEnabled_eq_true s).2 ⟨heng, hring⟩
  rw [hexec, execTapRetarget, whenReleased_of_released hheld]
  simp only [hhead, hen, if_true]

theorem retargetTap_of_free {t : Fin 128} {target k : Nat} {s : State} (h : s.taps[t] = none) :
    retargetTap t target k s = .error .wrongState := by
  simp only [retargetTap, h]

/-- The check and change of TAP_RETARGET on an attached tap whose line is defined. -/
theorem retargetTap_of_attached {t : Fin 128} {target k : Nat} {s : State} {r : TapRec} {lr : LineRec}
    (htap : s.taps[t] = some r) (hline : s.lines[r.line] = some lr) :
    retargetTap t target k s =
      if target < lr.length then
        .ok (retargetCount r.gliding (decide (target ≠ r.current))
          (setTap t (some { r with
            target := target, step := k, gliding := decide (target ≠ r.current) }) s))
      else .error .range := by
  simp only [retargetTap, htap, hline, Option.any_some, decide_eq_true_eq]

/-- The glide count follows the tap's state: it rises when the tap begins to glide and falls when it stops,
with GLIDES_SETTLED when it falls to 0; nothing else moves (R28, R31, R32). -/
theorem retargetCount_eq (before after : Bool) (s : State) :
    retargetCount before after s = { s with
      glideCount :=
        if before = false ∧ after = true then s.glideCount + 1
        else if before = true ∧ after = false then s.glideCount - 1
        else s.glideCount
      ev := if before = true ∧ after = false ∧ s.glideCount = 1 then
        raiseFlag .glidesSettled s.ev else s.ev } := by
  cases before <;> cases after
  case true.false =>
    by_cases hlast : s.glideCount = 1 <;> simp [retargetCount, glideCountFalls, hlast]
  all_goals rfl

/-- Settles O28: the head reaches `retargetTap`, whose refusals leave the machine as it was but for the head
and its record, and whose acceptance sets the tap's record and moves the glide count with the tap's state. -/
theorem tapRetargetSetsTarget : Obligations.TapRetargetSetsTarget := by
  unfold Obligations.TapRetargetSetsTarget
  intro s t target k tag rest hheld hqueue heng hring
  rw [exec_tapRetarget_of_head hheld hqueue heng hring]
  refine ⟨fun hfree => ?free, fun r lr htap hline hbeyond => ?beyond, fun r lr htap hline hwithin => ?within⟩
  case free => rw [retargetTap_of_free hfree, finishApplication_error]
  case beyond =>
    rw [retargetTap_of_attached htap hline, if_neg (Nat.not_lt.2 hbeyond), finishApplication_error]
  case within =>
    rw [retargetTap_of_attached htap hline, if_pos hwithin, finishApplication_ok, retargetCount_eq]
    simp only [setTap, decide_eq_true_eq, decide_eq_false_iff_not, not_not]

end Sys2Proof.Machine
end

section
/-! A write to EVENTS, bit by bit, alone and on either side of a raise (R153, R155). -/

namespace Sys2Proof.Machine

theorem eventBit_lt (e : Event) : eventBit e < 9 := by
  cases e <;> decide

/-- A raise sets the flag of its event and leaves the others (R153). -/
theorem raiseFlag_flags_getLsbD (e : Event) (ev : EventUnit) (i : Nat) :
    (raiseFlag e ev).flags.getLsbD i = (ev.flags.getLsbD i || decide (i = eventBit e)) := by
  rw [raiseFlag_flags, BitVec.getLsbD_or, BitVec.getLsbD_twoPow]
  simp [eventBit_lt, eq_comm]

/-- A clearing write leaves exactly the flags that were set and whose bit in the halfword is 0 (R155). -/
theorem clearEvents_flags_getLsbD (v : Half) (s : State) (i : Nat) :
    (clearEvents v s).ev.flags.getLsbD i = (s.ev.flags.getLsbD i && !v.getLsbD i) := by
  have hflags : (clearEvents v s).ev.flags = s.ev.flags &&& ~~~(v.setWidth 9) := rfl
  rw [hflags, BitVec.getLsbD_and, BitVec.getLsbD_not, BitVec.getLsbD_setWidth]
  by_cases hi : i < 9
  · simp [hi]
  · simp [hi, BitVec.getLsbD_of_ge s.ev.flags i (Nat.le_of_not_lt hi)]

theorem exec_events_of_released {s : State} (hheld : s.held = false) (v : Half) :
    exec (.events v) s = .next (clearEvents v s) := by
  have hexec : exec (.events v) s = execEvents v s := rfl
  rw [hexec, execEvents, whenReleased_of_released hheld]

/-- A clearing write after a raise decides the raised flag alone: the raise leaves no trace in it (R155). -/
theorem clearEvents_raise_same (v : Half) (e : Event) (s : State) :
    (clearEvents v (raise e s)).ev.flags.getLsbD (eventBit e) = !v.getLsbD (eventBit e) := by
  simp [clearEvents_flags_getLsbD, raiseFlag_flags_getLsbD]

/-- A clearing write acts on the flags of the other events as if the raise had not happened (R155). -/
theorem clearEvents_raise_other (v : Half) {e : Event} (s : State) {i : Nat} (hi : i ≠ eventBit e) :
    (clearEvents v (raise e s)).ev.flags.getLsbD i = (clearEvents v s).ev.flags.getLsbD i := by
  simp [clearEvents_flags_getLsbD, raiseFlag_flags_getLsbD, hi]

theorem raise_flags_getLsbD_same (e : Event) (s : State) :
    (raise e s).ev.flags.getLsbD (eventBit e) = true := by
  simp [raiseFlag_flags_getLsbD]

/-- Settles O39: the write is `clearEvents`, also on the raised state, since a raise does not hold the machine;
its flags are then read bit by bit on each side of the raise. -/
theorem eventsWriteClears : Obligations.EventsWriteClears := by
  unfold Obligations.EventsWriteClears
  intro s v hheld
  refine ⟨(clearEvents v s).ev.flags, exec_events_of_released hheld v,
    fun i _ => clearEvents_flags_getLsbD v s i, fun e => ⟨?raiseFirst, ?writeFirst⟩⟩
  case raiseFirst =>
    have hraised : (raise e s).held = false := hheld
    exact ⟨clearEvents v (raise e s), exec_events_of_released hraised v, clearEvents_raise_same v e s,
      fun i _ hi => clearEvents_raise_other v s hi⟩
  case writeFirst => exact fun t _ => raise_flags_getLsbD_same e t

end Sys2Proof.Machine
end

section
/-! What a command does, once for every proof that follows: the next state of a command, the rows whose
meanings a whole-location write takes, and the changes of which every command is made. -/

namespace Sys2Proof.Machine

/-! ### The next state of a command -/

/-- The state after a command: every command answers a next state (log 2). -/
def effect (c : Instr) (s : State) : State :=
  match exec c s with
  | .next t => t
  | .fault _ => s
  | .refused _ => s

theorem exec_eq_effect (c : Instr) (s : State) : exec c s = .next (effect c s) := by
  cases c <;> rfl

theorem effect_of_exec {c : Instr} {s t : State} (h : exec c s = .next t) : effect c s = t := by
  rw [exec_eq_effect] at h
  exact Host.Outcome.next.inj h

/-- A row that RST# guards does while it is released what its meaning does. -/
theorem exec_of_released {c : Instr} {s : State} {f : State → State} (hexec : exec c s = .next (whenReleased s f))
    (hheld : s.held = false) : exec c s = .next (f s) := by
  rw [hexec, whenReleased_of_released hheld]

/-- A row that RST# guards does nothing while it is asserted (R145). -/
theorem exec_of_held {c : Instr} {s : State} {f : State → State} (hexec : exec c s = .next (whenReleased s f))
    (hheld : s.held = true) : exec c s = .next s := by
  rw [hexec, whenReleased_of_held hheld]

/-! ### Whole-location writes as rows of the table -/

/-- The parts of a CTRL write in R47's order, or SOFT_RESET alone. -/
def ctrlRows (v : Half) : List Instr :=
  if v.getLsbD 3 then [.softReset]
  else .tickSource (v.extractLsb' 8 2) ::
    ((if v.getLsbD 1 then [.engineStop] else []) ++ (if v.getLsbD 0 then [.engineGo] else []) ++
      if v.getLsbD 2 then [.step] else [])

/-- The rows whose meanings a REGISTER_WRITE takes in turn, where it reaches beyond the registers of the host:
the parts of a CTRL write, the two fields of MEMCFG, and the locations with a row of their own.
Every other write stands for itself (log 11). -/
def writeRows (off : Offset) (v : Half) : List Instr :=
  match off.toNat with
  | 0x00 => ctrlRows v
  | 0x0A => [.memsize (v.setWidth 2), .refreshEnable (v.getLsbD 8)]
  | 0x0B => [.refint v]
  | 0x0D => [.txtimeout v]
  | 0x17 => [.submit v]
  | 0x18 => [.cancel v]
  | 0x1D => [.pop v]
  | 0x1F => [.dataHi v]
  | _ => [.registerWrite off v]

/-- The rows whose meanings a command takes in turn. -/
def rows : Instr → List Instr
  | .registerWrite off v => writeRows off v
  | c => [c]

/-- The state after a list of commands. -/
def runRows (cs : List Instr) (s : State) : State := cs.foldl (fun s c => effect c s) s

@[simp] theorem runRows_nil (s : State) : runRows [] s = s := rfl

@[simp] theorem runRows_cons (c : Instr) (cs : List Instr) (s : State) :
    runRows (c :: cs) s = runRows cs (effect c s) := rfl

theorem effect_registerWrite (off : Offset) (v : Half) (s : State) :
    effect (.registerWrite off v) s = whenReleased s (writeWindow off v) := rfl

theorem effect_softReset (s : State) : effect .softReset s = whenReleased s softReset := rfl
theorem effect_step (s : State) : effect .step s = whenReleased s stepRequest := rfl
theorem effect_engineGo (s : State) : effect .engineGo s = whenReleased s goRequest := rfl
theorem effect_engineStop (s : State) : effect .engineStop s = whenReleased s stopRequest := rfl
theorem effect_tickSource (field : BitVec 2) (s : State) :
    effect (.tickSource field) s = whenReleased s (sourceRequest field) := rfl
theorem effect_memsize (code : BitVec 2) (s : State) :
    effect (.memsize code) s = whenReleased s (setMemsize code) := rfl
theorem effect_refreshEnable (on : Bool) (s : State) :
    effect (.refreshEnable on) s = whenReleased s (setRefresh on) := rfl

@[simp] theorem setMemsize_held (code : BitVec 2) (s : State) : (setMemsize code s).held = s.held := by
  unfold setMemsize
  split_ifs <;> rfl

/-- A CTRL write is the run of its parts in R47's order. -/
theorem writeCtrl_eq_runRows (v : Half) {s : State} (hheld : s.held = false) :
    writeCtrl v s = runRows (ctrlRows v) s := by
  unfold writeCtrl ctrlRows
  generalize v.getLsbD 3 = reset, v.getLsbD 1 = stop, v.getLsbD 0 = go, v.getLsbD 2 = step
  cases reset with
  | true => simp [effect_softReset, whenReleased, hheld]
  | false =>
    cases stop <;> cases go <;> cases step <;>
      simp [effect_tickSource, effect_engineStop, effect_engineGo, effect_step, whenReleased, hheld]

/-- A MEMCFG write is the run of its two fields (R128, R130). -/
theorem writeMemcfg_eq_runRows (v : Half) {s : State} (hheld : s.held = false) :
    writeMemcfg v s = runRows [.memsize (v.setWidth 2), .refreshEnable (v.getLsbD 8)] s := by
  simp [writeMemcfg, effect_memsize, effect_refreshEnable, whenReleased, hheld]

/-- While RST# is asserted no row of a whole-location write acts (R145). -/
theorem runRows_writeRows_of_held (off : Offset) (v : Half) {s : State} (hheld : s.held = true) :
    runRows (writeRows off v) s = s := by
  have row : ∀ f : State → State, whenReleased s f = s := whenReleased_of_held hheld
  unfold writeRows
  split
  case h_1 =>
    unfold ctrlRows
    cases v.getLsbD 3 <;> cases v.getLsbD 0 <;> cases v.getLsbD 1 <;> cases v.getLsbD 2 <;>
      simp [effect_softReset, effect_tickSource, effect_engineStop, effect_engineGo, effect_step, row]
  case h_2 => simp [effect_memsize, effect_refreshEnable, row]
  all_goals exact row _

/-- A whole-location write takes the meanings of its rows in turn (R47, R130, log 11). -/
theorem effect_registerWrite_eq_runRows (off : Offset) (v : Half) (s : State) :
    effect (.registerWrite off v) s = runRows (writeRows off v) s := by
  cases hheld : s.held with
  | true => rw [runRows_writeRows_of_held off v hheld, effect_registerWrite, whenReleased_of_held hheld]
  | false =>
    have row : ∀ f : State → State, whenReleased s f = f s := whenReleased_of_released hheld
    rw [effect_registerWrite, row]
    have hoff : ∀ n (h : n < 2 ^ 7), off.toNat = n → off = BitVec.ofNatLT n h := fun n h hn =>
      BitVec.eq_of_toNat_eq (by simp [hn])
    unfold writeRows
    split
    case h_1 h => rw [hoff _ (by decide) h]; exact writeCtrl_eq_runRows v hheld
    case h_2 h => rw [hoff _ (by decide) h]; exact writeMemcfg_eq_runRows v hheld
    case h_9 => exact (row _).symm
    all_goals next h => rw [hoff _ (by decide) h]; exact (row _).symm

theorem effect_eq_runRows (c : Instr) (s : State) : effect c s = runRows (rows c) s := by
  cases c
  case registerWrite off v => exact effect_registerWrite_eq_runRows off v s
  all_goals rfl

end Sys2Proof.Machine
end

section
/-! The changes of which every command is made (`Act`): one constructor per kind of change, with the
condition that enables it. Each invariant of the machine is then a case analysis over these changes. -/

namespace Sys2Proof.Machine

/-! ### The table requests -/

/-- The checks and the change of a table request (R15 to R21, R26 to R29); the other kinds have none. -/
def tableChange (q : Request) (s : State) : Except Status State :=
  match q with
  | .lineDefine l base length src => defineLine l base.toNat length.toNat src s
  | .lineRelease l => releaseLine l s
  | .lineStart l m => startLine l m s
  | .lineFreeze l => freezeLine l s
  | .lineHalt l => haltLine l s
  | .tapAttach t l delay b g => attachTap t l delay.toNat b g s
  | .tapDetach t => detachTap t s
  | .tapRetarget t target k => retargetTap t target.toNat k s
  | .tapGain t g b => gainTap t g b s
  | .mark => .error .ok
  | .blockWrite _ _ => .error .ok
  | .blockRead _ _ => .error .ok
  | .blockFill _ _ _ => .error .ok

/-- The machine with other tables, and the events that came with the change. -/
def State.withTables (s : State) (lines : Vector (Option LineRec) 32) (taps : Vector (Option TapRec) 128)
    (glideCount : Nat) (ev : EventUnit) : State :=
  { s with lines := lines, taps := taps, glideCount := glideCount, ev := ev }

theorem freezeLine_eq_ok {l : Fin 32} {s s' : State} (h : freezeLine l s = .ok s') :
    ∃ r, s.lines[l] = some r ∧ r.mode = .running ∧ s' = setLine l (some { r with mode := .frozen 0 }) s := by
  unfold freezeLine at h
  split at h
  · cases h
  · next r hr =>
    split at h
    · next hm => cases h; exact ⟨r, hr, hm, rfl⟩
    · cases h

theorem haltLine_eq_ok {l : Fin 32} {s s' : State} (h : haltLine l s = .ok s') :
    ∃ r, s.lines[l] = some r ∧ r.mode ≠ .idle ∧ s' = setLine l (some { r with mode := .idle }) s := by
  unfold haltLine at h
  split at h
  · cases h
  · next r hr =>
    split at h
    · cases h
    · next hm => cases h; exact ⟨r, hr, hm, rfl⟩

theorem attachTap_eq_ok {t : Fin 128} {l : Fin 32} {delay : Nat} {b : Fin 16} {g : BitVec 16} {s s' : State}
    (h : attachTap t l delay b g s = .ok s') :
    s.taps[t] = none ∧ (∃ r, s.lines[l] = some r ∧ delay < r.length) ∧
      s' = setTap t (some ⟨l, delay, delay, 0, b, g, false⟩) s := by
  unfold attachTap at h
  split at h
  · cases h
  · next ht =>
    split at h
    · cases h
    · next r hr =>
      split at h
      · next hd => cases h; exact ⟨by simpa using ht, ⟨r, hr, hd⟩, rfl⟩
      · cases h

theorem detachTap_eq_ok {t : Fin 128} {s s' : State} (h : detachTap t s = .ok s') :
    ∃ r, s.taps[t] = some r ∧ s' = if r.gliding then glideCountFalls (setTap t none s) else setTap t none s := by
  unfold detachTap at h
  split at h
  · cases h
  · next r hr => cases h; exact ⟨r, hr, rfl⟩

theorem retargetTap_eq_ok {t : Fin 128} {target k : Nat} {s s' : State} (h : retargetTap t target k s = .ok s') :
    ∃ r lr, s.taps[t] = some r ∧ s.lines[r.line] = some lr ∧ target < lr.length ∧
      s' = retargetCount r.gliding (decide (target ≠ r.current))
        (setTap t (some { r with target := target, step := k, gliding := decide (target ≠ r.current) }) s) := by
  unfold retargetTap at h
  split at h
  · cases h
  · next r hr =>
    split at h
    · next hl =>
      obtain ⟨lr, hlr, hlt⟩ := (Option.any_eq_true _ _).1 hl
      cases h
      exact ⟨r, lr, hr, hlr, by simpa using hlt, rfl⟩
    · cases h

theorem gainTap_eq_ok {t : Fin 128} {g : BitVec 16} {b : Fin 16} {s s' : State} (h : gainTap t g b s = .ok s') :
    ∃ r, s.taps[t] = some r ∧ s' = setTap t (some { r with gain := g, bus := b }) s := by
  unfold gainTap at h
  split at h
  · cases h
  · next r hr => cases h; exact ⟨r, hr, rfl⟩

/-- A table request changes the tables and the events only (R61). -/
theorem tableChange_frame {q : Request} {s s' : State} (h : tableChange q s = .ok s') :
    s' = s.withTables s'.lines s'.taps s'.glideCount s'.ev := by
  cases q <;> simp only [tableChange] at h
  case lineDefine => obtain ⟨-, -, -, -, rfl⟩ := defineLine_eq_ok h; rfl
  case lineRelease => obtain ⟨-, -, rfl⟩ := releaseLine_eq_ok h; rfl
  case lineStart => obtain ⟨r, -, -, -, rfl⟩ := startLine_eq_ok h; rfl
  case lineFreeze => obtain ⟨r, -, -, rfl⟩ := freezeLine_eq_ok h; rfl
  case lineHalt => obtain ⟨r, -, -, rfl⟩ := haltLine_eq_ok h; rfl
  case tapAttach => obtain ⟨-, -, rfl⟩ := attachTap_eq_ok h; rfl
  case tapDetach => obtain ⟨r, -, rfl⟩ := detachTap_eq_ok h; cases r.gliding <;> rfl
  case tapRetarget =>
    obtain ⟨r, lr, -, -, -, rfl⟩ := retargetTap_eq_ok h
    rw [retargetCount_eq]
    rfl
  case tapGain => obtain ⟨r, -, rfl⟩ := gainTap_eq_ok h; rfl
  all_goals cases h

/-! ### Changes with a case inside -/

theorem glideTurn_eq (t : Fin 128) (r : TapRec) (s : State) :
    glideTurn t r s = { s with
      taps := s.taps.set t (some r.glided)
      glideCount := if r.glided.gliding then s.glideCount else s.glideCount - 1
      eng := { s.eng with stage := .glides (t.val + 1) }
      ev := raiseFlagIf (!r.glided.gliding && decide (s.glideCount = 1)) .glidesSettled s.ev } := by
  unfold glideTurn
  cases r.glided.gliding <;> rfl

/-- The accumulators after the product of tap `t` with a sample is added to its bus (R36). -/
def accAfter (s : State) (t : Fin 128) (v : Sample) : Vector Int 16 :=
  match s.taps[t] with
  | none => s.eng.acc
  | some r => s.eng.acc.set r.bus (s.eng.acc[r.bus] + tapProduct r.gain v)

theorem addProduct_eq (t : Fin 128) (v : Sample) (s : State) :
    addProduct t v s = { s with eng := { s.eng with acc := accAfter s t v } } := by
  unfold addProduct accAfter
  cases s.taps[t] <;> rfl

/-- The cells that a write or fill burst brings to the DRAM, from its first cell upward (R109, R114). -/
def storedCells : DramOp → Option (Nat × List Sample)
  | .writeBurst address cells => some (address, cells)
  | .fillBurst address size v => some (address, List.replicate size v)
  | _ => none

/-- The cells of a read burst enter the FIFO of the transfer that moves (R112). -/
theorem fetchCells_of_moving {s : State} {t : Transfer} (cells : List Sample) (hactive : s.tx.active = some t)
    (hfinal : t.final = none) :
    fetchCells cells s = { s with
      tx := { s.tx with
        active := some { t with fetched := t.fetched + cells.length }
        fifo := s.tx.fifo ++ cells }
      ev := raiseFlagIf
        (decide (s.tx.fifo.length < readThreshold t) &&
          decide (readThreshold t ≤ s.tx.fifo.length + cells.length)) .dataRequest s.ev } := by
  simp only [fetchCells, hactive, hfinal, Option.isSome_none, Bool.false_eq_true, if_false]

/-- With no transfer moving the cells are discarded (R96). -/
theorem fetchCells_of_ended {s : State} (cells : List Sample) (h : ∀ t ∈ s.tx.active, t.final ≠ none) :
    fetchCells cells s = s := by
  unfold fetchCells
  split
  · rfl
  · next t ht => rw [if_pos (Option.isSome_iff_ne_none.2 (h t ht))]

/-! ### The changes -/

/-- The changes of the machine, by the row that makes each where a claim turns on the row. Every command that
is no write of a whole location makes one of them, and such a write one after the other. -/
inductive Act : Instr → State → State → Prop
  /-- Registers that no invariant reads: counters and masks, staging area, Host Port and Event Unit. -/
  | registers {c s} (source overrun stale kindTag args late host ev) :
      Act c s { s with
        eng := { s.eng with tickSource := source, overrun := overrun, stale := stale }
        req := { s.req with kindTag := kindTag, args := args }
        port := { s.port with late := late }
        host := host
        ev := ev }
  -- The Frame Engine
  | begins {c s} (hstate : s.eng.state = .waiting) :
      Act c s (beginService { s with eng := { s.eng with pendingTick := false } })
  | pends {c s} (hstate : s.eng.state = .servicing) : Act c s { s with eng := { s.eng with pendingTick := true } }
  | goes {c s} (hstate : s.eng.state = .stopped) :
      Act c s { s with eng := { s.eng with state := .waiting, pendingTick := false } }
  | stops {c s} (hstate : s.eng.state = .waiting) :
      Act c s { s with
        eng := { s.eng with state := .stopped, pendingTick := false }
        req := { s.req with mark := stopMark s.req.mark } }
  | stopping {c s} (hstate : s.eng.state = .servicing) : Act c s { s with eng := { s.eng with state := .stopping } }
  | glides {s t r} (ev) (hitem : currentItem s = some (.glide t r)) :
      Act .glideStage s { s with
        taps := s.taps.set t (some r.glided)
        glideCount := if r.glided.gliding then s.glideCount else s.glideCount - 1
        eng := { s.eng with stage := .glides (t.val + 1) }
        ev := ev }
  | lineClaims {s l r} (hwaits : engineWaits s.port = false) (hitem : currentItem s = some (.line l r))
      (hop : engineOpInFlight s.port = false) :
      Act .lineWriteStage s { s with port := { s.port with
        engineClaim := some ⟨.lineWrite l (r.base + r.head) (sourceValue s r.source), false⟩ } }
  | loopAdvances {s l r loop} (hwaits : engineWaits s.port = false) (hitem : currentItem s = some (.line l r))
      (hmode : r.mode = .frozen loop) :
      Act .lineWriteStage s (atStage (.lineWrites (l.val + 1))
        (setLine l (some { r with mode := .frozen ((loop + 1) % r.length) }) s))
  | tapClaims {s t r} (cell : Nat) (hwaits : engineWaits s.port = false)
      (hitem : currentItem s = some (.tap t r)) (hop : engineOpInFlight s.port = false) :
      Act .tapReadStage s { s with port := { s.port with engineClaim := some ⟨.tapRead t cell, false⟩ } }
  | tapPasses {s t r} (hwaits : engineWaits s.port = false) (hitem : currentItem s = some (.tap t r)) :
      Act .tapReadStage s (atStage (.tapReads (t.val + 1)) s)
  | publishes {s} (hwaits : engineWaits s.port = false) (hitem : currentItem s = some .publish) :
      Act .publish s (publishService s)
  -- Engine operations at the port
  | lineWriteGranted {s l cell v p} (hop : s.port.op = none)
      (hclaim : s.port.engineClaim = some ⟨.lineWrite l cell v, p⟩) :
      Act .lineWriteGrant s (grantLineWrite l cell v s)
  | tapReadGranted {s t cell p} (hop : s.port.op = none)
      (hclaim : s.port.engineClaim = some ⟨.tapRead t cell, p⟩) :
      Act .tapReadGrant s { s with port := beginOp (.tapRead t cell) { s.port with engineClaim := none } }
  | lineWriteDone {s l} (hop : s.port.op = some ⟨.lineWrite l, true⟩) :
      Act .lineWriteCompletion s (atStage (.lineWrites (l.val + 1)) (freePort s))
  | lineWriteDisowned {s l} (hop : s.port.op = some ⟨.lineWrite l, false⟩) : Act .lineWriteCompletion s (freePort s)
  | tapReadDone {s t cell} (hop : s.port.op = some ⟨.tapRead t cell, true⟩) :
      Act .tapReadCompletion s (atStage (.tapReads (t.val + 1))
        { countReads 1 (freePort s) with
          eng := { s.eng with acc := accAfter s t (s.dram.read cell) } })
  | tapReadDisowned {s t cell} (hop : s.port.op = some ⟨.tapRead t cell, false⟩) :
      Act .tapReadCompletion s (countReads 1 (freePort s))
  -- Bursts and refresh at the port
  | writeBurstGranted {s address size} (hop : s.port.op = none)
      (hclaim : s.port.txClaim = some ⟨.write, address, size⟩) :
      Act .writeBurstGrant s (grantWriteBurst address size s)
  | readBurstGranted {s address size} (hop : s.port.op = none)
      (hclaim : s.port.txClaim = some ⟨.read, address, size⟩) :
      Act .readBurstGrant s (grantBurst (.readBurst address size) s)
  | fillBurstGranted {s address size v} (hop : s.port.op = none)
      (hclaim : s.port.txClaim = some ⟨.fill v, address, size⟩) :
      Act .fillBurstGrant s (grantBurst (.fillBurst address size v) s)
  | storeDone {c s op address cells} (hrow : c = completionOf op) (hop : s.port.op = some ⟨op, true⟩)
      (hcells : storedCells op = some (address, cells)) :
      Act c s (settleTransfer (raiseWritten cells.length (storeCells address cells (freePort s))))
  | storeDisowned {c s op address cells} (hrow : c = completionOf op) (hop : s.port.op = some ⟨op, false⟩)
      (hcells : storedCells op = some (address, cells)) :
      Act c s (settleTransfer (storeCells address cells (freePort s)))
  /-- A read burst's cells enter the FIFO of the transfer that moves (R112). -/
  | readBurstDone {s address size t} {cells : List Sample} (ev)
      (hop : s.port.op = some ⟨.readBurst address size, true⟩)
      (hactive : s.tx.active = some t) (hfinal : t.final = none) (hsize : cells.length = size) :
      Act .readBurstCompletion s (settleTransfer { countReads size (freePort s) with
        tx := { s.tx with
          active := some { t with fetched := t.fetched + size }
          fifo := s.tx.fifo ++ cells }
        ev := ev })
  /-- A read burst's cells are discarded: the transfer has ended, or a soft reset disowned the burst (R96, R120). -/
  | readBurstDiscarded {s address size owned} (hop : s.port.op = some ⟨.readBurst address size, owned⟩)
      (hwhy : owned = false ∨ ∀ t ∈ s.tx.active, t.final ≠ none) :
      Act .readBurstCompletion s (settleTransfer (countReads size (freePort s)))
  | refreshGranted {s} (hop : s.port.op = none) : Act .refreshGrant s { s with port := beginOp .refresh s.port }
  | refreshDone {s owned} (hop : s.port.op = some ⟨.refresh, owned⟩) :
      Act .refreshCompletion s { s with port := { s.port with
        op := none
        debt := s.port.debt - 1
        engineClaim := s.port.engineClaim.map fun c => { c with promoted := true } } }
  -- The timers
  | refreshExpired {c s} (htimer : s.port.refreshTimer.isSome = true) : Act c s (refreshExpires s)
  | refreshCounted {c s} (n : Nat) (htimer : s.port.refreshTimer.isSome = true) :
      Act c s { s with port := { s.port with refreshTimer := some n } }
  | starvationCounted {c s} (n : Nat) (htimer : s.tx.timer.isSome = true) :
      Act c s { s with tx := { s.tx with timer := some n } }
  /-- The moving transfer is cut short, by the starvation timer or by a CANCEL (R96, R116). -/
  | transferCut {c s t} (f : Final) (hactive : s.tx.active = some t) (hfinal : t.final = none) :
      Act c s (cutTransfer f t s)
  -- The head of the queue
  /-- A head leaves with its record and without another change. -/
  | headLeaves {c s e rest} (r : Record) (hrow : takesRingSlot c = true) (hqueue : s.req.queue = e :: rest)
      (hring : s.ring.length < 16) : Act c s (completeHead r s)
  /-- A head leaves with its record after the change of the tables that it asks for. -/
  | headApplies {c s q tag rest lines taps glideCount ev} (r : Record) (hrow : takesRingSlot c = true)
      (hqueue : s.req.queue = ⟨q, tag, false⟩ :: rest)
      (hstate : s.eng.state = .stopped ∨ s.eng.state = .waiting) (hring : s.ring.length < 16)
      (hchange : tableChange q s = .ok (s.withTables lines taps glideCount ev)) :
      Act c s (completeHead r (s.withTables lines taps glideCount ev))
  /-- A head leaves as the active transfer. -/
  | headMoves {c s q rest tag} {address count : BitVec 32} (k : TransferKind) (hrow : takesRingSlot c = true)
      (hqueue : s.req.queue = ⟨q, tag, false⟩ :: rest) (hactive : s.tx.active = none)
      (hcount : countChecked q = true → 1 ≤ count.toNat ∧ count.toNat ≤ 65536)
      (hrefusal : handoverRefusal address.toNat count.toNat s = none) :
      Act c s (acceptTransfer tag k address.toNat count.toNat s)
  | transferLeaves {s t f} (r : Record) (hactive : s.tx.active = some t) (hfinal : t.final = some f)
      (hring : s.ring.length < 16) (hburst : ownBurstInFlight s.port = false) :
      Act .transferCompletion s (pushRecord r { s with tx := { s.tx with active := none } })
  -- The host
  | submits {s v q tag} (hqueue : s.req.queue.length < 8) (hstaged : stagedRequest s.req = .ok (q, tag)) :
      Act (.submit v) s (enqueue q tag s)
  | marksEntry {c s} (tag : Tag) :
      Act c s { s with req := { s.req with queue := markOldest tag s.req.queue } }
  | pops {s v r rest} (hring : s.ring = r :: rest) : Act (.pop v) s { s with ring := rest }
  | pushes {c s t} (v : Sample) (hactive : s.tx.active = some t) (hfinal : t.final = none)
      (hkind : t.kind = .write) (haccepted : t.accepted < t.count) (hfifo : s.tx.fifo.length < 64) :
      Act c s (settleRestarted { s with tx := { s.tx with
        active := some { t with accepted := t.accepted + 1 }
        fifo := s.tx.fifo ++ [v] } })
  | takes {c s t v rest} (hactive : s.tx.active = some t) (hfinal : t.final = none) (hkind : t.kind = .read)
      (hfifo : s.tx.fifo = v :: rest) : Act c s (takeCell t v rest s)
  -- Memory configuration
  | resizes {c s} (code : BitVec 2) (hrefused : memsizeRefused code s = false) :
      Act c s { s with port := { s.port with memsize := code } }
  | enablesRefresh {c s} : Act c s { s with port := { s.port with
      refreshOn := true, refreshTimer := some s.port.refint.toNat, debt := 0 } }
  | disablesRefresh {c s} : Act c s { s with port := { s.port with
      refreshOn := false, refreshTimer := none, debt := 0 } }
  | setsRefint {c s} (n : BitVec 8) (hn : n ≠ 0) : Act c s { s with port := { s.port with refint := n } }
  | setsTimeout {c s} (v : Half) : Act c s (setTimeout v s)
  -- Resets and the DRAM
  | softResets {s} : Act .softReset s (softReset s)
  | deviceResets {s} : Act .deviceReset s
      { State.reset with pending := s.pending, held := true, dram := s.dram.lost }
  | releases {s} : Act .rstRelease s { s with held := false }
  | losesContents {c s} : Act c s { s with dram := s.dram.lost }

namespace Act

theorem stays (c : Instr) (s : State) : Act c s s :=
  .registers (c := c) (s := s) s.eng.tickSource s.eng.overrun s.eng.stale s.req.kindTag s.req.args s.port.late
    s.host s.ev

theorem host (c : Instr) (s : State) (h : HostPort) : Act c s { s with host := h } :=
  .registers (c := c) (s := s) s.eng.tickSource s.eng.overrun s.eng.stale s.req.kindTag s.req.args s.port.late h s.ev

theorem events (c : Instr) (s : State) (ev : EventUnit) : Act c s { s with ev := ev } :=
  .registers (c := c) (s := s) s.eng.tickSource s.eng.overrun s.eng.stale s.req.kindTag s.req.args s.port.late
    s.host ev

theorem hostEvents (c : Instr) (s : State) (h : HostPort) (ev : EventUnit) :
    Act c s { s with host := h, ev := ev } :=
  .registers (c := c) (s := s) s.eng.tickSource s.eng.overrun s.eng.stale s.req.kindTag s.req.args s.port.late h ev

theorem hostError (c : Instr) (e : HostError) (s : State) : Act c s (Machine.hostError e s) := .hostEvents c s _ _

/-- A row that RST# guards makes a change, if its meaning does while RST# is released. -/
theorem guarded {c : Instr} {s : State} {f : State → State} (h : s.held = false → Act c s (f s)) :
    Act c s (whenReleased s f) :=
  whenReleased_keeps (P := fun t => Act c s t) (.stays c s) h

/-- The same, of the row itself. -/
theorem guardedRow {c : Instr} {s : State} {f : State → State} (hexec : exec c s = .next (whenReleased s f))
    (h : s.held = false → Act c s (f s)) : Act c s (effect c s) := by
  rw [effect_of_exec hexec]
  exact .guarded h

/-! ### The Frame Engine -/

theorem loseTick (c : Instr) (s : State) : Act c s (Machine.loseTick s) := .registers ..

theorem tickArrives (c : Instr) (s : State) : Act c s (Machine.tickArrives s) := by
  unfold Machine.tickArrives
  split
  case h_2 hstate hpending =>
    have hs : s = { s with eng := { s.eng with pendingTick := false } } := by rw [← hpending]
    rw [hs]
    exact .begins hstate
  case h_4 hstate _ => exact .pends hstate
  case h_3 => exact .loseTick c s
  case h_5 => exact .loseTick c s
  all_goals exact .stays c s

theorem stepRequest (c : Instr) (s : State) : Act c s (Machine.stepRequest s) := by
  unfold Machine.stepRequest
  split
  · exact .tickArrives c s
  · exact .stays c s

theorem goRequest (c : Instr) (s : State) : Act c s (Machine.goRequest s) := by
  unfold Machine.goRequest
  split
  · next hstate => exact .goes hstate
  · exact .stays c s

theorem stopRequest (c : Instr) (s : State) : Act c s (Machine.stopRequest s) := by
  unfold Machine.stopRequest
  split
  case h_1 hstate => exact .stops hstate
  case h_2 hstate => exact .stopping hstate
  all_goals exact .stays c s

theorem sourceRequest (c : Instr) (field : BitVec 2) (s : State) : Act c s (Machine.sourceRequest field s) := by
  obtain ⟨source, errors, ev, h⟩ := sourceRequest_frame field s
  rw [h]
  exact .registers ..

theorem pendingStart (s : State) : Act .pendingStart s (effect .pendingStart s) := by
  refine .guardedRow rfl fun _ => ?_
  split
  · next h => exact .begins h.1
  · exact .stays _ s

theorem glideStage (s : State) : Act .glideStage s (effect .glideStage s) := by
  refine .guardedRow rfl fun _ => ?_
  split
  · next t r hitem =>
    rw [glideTurn_eq]
    exact .glides _ hitem
  · exact .stays _ s

theorem lineTurn {s : State} {l : Fin 32} {r : LineRec} (hwaits : engineWaits s.port = false)
    (hitem : currentItem s = some (.line l r)) : Act .lineWriteStage s (Machine.lineTurn l r s) := by
  unfold Machine.lineTurn
  split
  · split
    · exact .stays _ s
    · next hop => exact .lineClaims hwaits hitem (by simpa using hop)
  · next hmode => exact .loopAdvances hwaits hitem hmode
  · exact .stays _ s

theorem lineWriteStage (s : State) : Act .lineWriteStage s (effect .lineWriteStage s) := by
  refine .guardedRow rfl fun _ => ?_
  split
  · exact .stays _ s
  · next hwaits =>
    split
    · next hitem => exact .lineTurn (by simpa using hwaits) hitem
    · exact .stays _ s

theorem tapTurn {s : State} {t : Fin 128} {r : TapRec} (hwaits : engineWaits s.port = false)
    (hitem : currentItem s = some (.tap t r)) : Act .tapReadStage s (Machine.tapTurn t r s) := by
  unfold Machine.tapTurn
  split
  · split
    · exact .stays _ s
    · next hop => exact .tapClaims _ hwaits hitem (by simpa using hop)
  · exact .tapPasses hwaits hitem

theorem tapReadStage (s : State) : Act .tapReadStage s (effect .tapReadStage s) := by
  refine .guardedRow rfl fun _ => ?_
  split
  · exact .stays _ s
  · next hwaits =>
    split
    · next hitem => exact .tapTurn (by simpa using hwaits) hitem
    · exact .stays _ s

theorem publish (s : State) : Act .publish s (effect .publish s) := by
  refine .guardedRow rfl fun _ => ?_
  split
  · next h => exact .publishes h.1 h.2
  · exact .stays _ s

/-! ### The Memory Port -/

theorem lineWriteGrant (s : State) : Act .lineWriteGrant s (effect .lineWriteGrant s) := by
  refine .guardedRow rfl fun _ => ?_
  split
  · next ha hclaim => exact .lineWriteGranted (arbiter_eq_some ha).1 hclaim
  · exact .stays _ s

theorem tapReadGrant (s : State) : Act .tapReadGrant s (effect .tapReadGrant s) := by
  refine .guardedRow rfl fun _ => ?_
  split
  · next ha hclaim => exact .tapReadGranted (arbiter_eq_some ha).1 hclaim
  · exact .stays _ s

theorem lineWriteCompletion (s : State) : Act .lineWriteCompletion s (effect .lineWriteCompletion s) := by
  refine .guardedRow rfl fun _ => ?_
  split
  · next owned hop =>
    cases owned
    · exact .lineWriteDisowned hop
    · exact .lineWriteDone hop
  · exact .stays _ s

theorem tapReadCompletion (s : State) : Act .tapReadCompletion s (effect .tapReadCompletion s) := by
  refine .guardedRow rfl fun _ => ?_
  split
  · next owned hop =>
    cases owned
    · exact .tapReadDisowned hop
    · rw [if_pos rfl, addProduct_eq]
      exact .tapReadDone hop
  · exact .stays _ s

theorem writeBurstGrant (s : State) : Act .writeBurstGrant s (effect .writeBurstGrant s) := by
  refine .guardedRow rfl fun _ => ?_
  split
  · next ha hclaim => exact .writeBurstGranted (arbiter_eq_some ha).1 hclaim
  · exact .stays _ s

theorem readBurstGrant (s : State) : Act .readBurstGrant s (effect .readBurstGrant s) := by
  refine .guardedRow rfl fun _ => ?_
  split
  · next ha hclaim => exact .readBurstGranted (arbiter_eq_some ha).1 hclaim
  · exact .stays _ s

theorem fillBurstGrant (s : State) : Act .fillBurstGrant s (effect .fillBurstGrant s) := by
  refine .guardedRow rfl fun _ => ?_
  split
  · next ha hclaim => exact .fillBurstGranted (arbiter_eq_some ha).1 hclaim
  · exact .stays _ s

/-- A write or fill burst of the transfer counts its cells, a disowned one does not (R109, R114, R120). -/
theorem completeStore {c : Instr} {s : State} {op : DramOp} {address : Nat} {cells : List Sample} {owned : Bool}
    (hrow : c = completionOf op) (hop : s.port.op = some ⟨op, owned⟩)
    (hcells : storedCells op = some (address, cells)) : Act c s (Machine.completeStore owned address cells s) := by
  cases owned
  · exact .storeDisowned hrow hop hcells
  · exact .storeDone hrow hop hcells

theorem writeBurstCompletion (s : State) : Act .writeBurstCompletion s (effect .writeBurstCompletion s) := by
  refine .guardedRow rfl fun _ => ?_
  split
  · next hop => exact .completeStore rfl hop rfl
  · exact .stays _ s

theorem fillBurstCompletion (s : State) : Act .fillBurstCompletion s (effect .fillBurstCompletion s) := by
  refine .guardedRow rfl fun _ => ?_
  split
  · next hop => exact .completeStore rfl hop rfl
  · exact .stays _ s

theorem fetchCells {s : State} {address size : Nat} {cells : List Sample}
    (hop : s.port.op = some ⟨.readBurst address size, true⟩) (hsize : cells.length = size) :
    Act .readBurstCompletion s (settleTransfer (Machine.fetchCells cells (countReads size (freePort s)))) := by
  by_cases hended : ∀ t ∈ s.tx.active, t.final ≠ none
  · rw [fetchCells_of_ended (s := countReads size (freePort s)) cells hended]
    exact .readBurstDiscarded hop (.inr hended)
  · simp only [not_forall, not_not] at hended
    obtain ⟨t, hactive, hfinal⟩ := hended
    rw [fetchCells_of_moving (s := countReads size (freePort s)) cells hactive hfinal, hsize]
    exact .readBurstDone _ hop hactive hfinal hsize

theorem readBurstCompletion (s : State) : Act .readBurstCompletion s (effect .readBurstCompletion s) := by
  refine .guardedRow rfl fun _ => ?_
  split
  · next owned hop =>
    cases owned
    · exact .readBurstDiscarded hop (.inl rfl)
    · exact .fetchCells hop (Dram.readMany_length ..)
  · exact .stays _ s

theorem refreshGrant (s : State) : Act .refreshGrant s (effect .refreshGrant s) := by
  refine .guardedRow rfl fun _ => ?_
  split
  · next ha => exact .refreshGranted (arbiter_eq_some ha).1
  · exact .stays _ s

theorem refreshCompletion (s : State) : Act .refreshCompletion s (effect .refreshCompletion s) := by
  refine .guardedRow rfl fun _ => ?_
  split
  · next hop => exact .refreshDone hop
  · exact .stays _ s

/-! ### The timers -/

theorem starvationExpires (c : Instr) (s : State) : Act c s (Machine.starvationExpires s) := by
  unfold Machine.starvationExpires
  split
  · next hactive =>
    split
    · next hfinal => exact .transferCut .stalled hactive (by simpa using hfinal)
    · exact .stays c s
  · exact .stays c s

theorem refreshTimerExpiry (s : State) : Act .refreshTimerExpiry s (effect .refreshTimerExpiry s) := by
  refine .guardedRow rfl fun _ => ?_
  split
  · next htimer => exact .refreshExpired htimer
  · exact .stays _ s

theorem starvationTimerExpiry (s : State) : Act .starvationTimerExpiry s (effect .starvationTimerExpiry s) := by
  refine .guardedRow rfl fun _ => ?_
  split
  · exact .starvationExpires _ s
  · exact .stays _ s

theorem countRefreshTimer (c : Instr) (s : State) : Act c s (Machine.countRefreshTimer s) := by
  unfold Machine.countRefreshTimer
  split
  · exact .stays c s
  · next htimer =>
    split
    · exact .refreshExpired (by simp [htimer])
    · exact .refreshCounted _ (by simp [htimer])

theorem countStarvationTimer (c : Instr) (s : State) : Act c s (Machine.countStarvationTimer s) := by
  unfold Machine.countStarvationTimer
  split
  · exact .stays c s
  · next htimer =>
    split
    · exact .starvationExpires c s
    · exact .starvationCounted _ (by simp [htimer])

/-! ### The head of the queue -/

theorem cancelledHeadCompletion (s : State) :
    Act .cancelledHeadCompletion s (effect .cancelledHeadCompletion s) := by
  refine .guardedRow rfl fun _ => ?_
  split
  · exact .stays _ s
  · next hqueue =>
    split
    · next h =>
      simp only [Bool.and_eq_true, ringFree_eq_true] at h
      exact .headLeaves _ rfl hqueue h.2
    · exact .stays _ s

/-- The end of an application: the head leaves alone, or after its change of the tables (R74, R77). -/
theorem application {c : Instr} {s : State} {q : Request} {tag : Tag} (kind : Kind)
    (hrow : takesRingSlot c = true) (hhead : openHead s = some (q, tag)) (hen : applicationEnabled s = true) :
    Act c s (finishApplication kind tag (tableChange q s) s) := by
  obtain ⟨rest, hqueue⟩ := (openHead_eq_some s q tag).1 hhead
  obtain ⟨hstate, hring⟩ := (applicationEnabled_eq_true s).1 hen
  rcases finishApplication_cases kind tag (tableChange q s) s with ⟨s', hok, hfin⟩ | ⟨status, -, hfin⟩
  · rw [hfin, tableChange_frame hok]
    exact .headApplies _ hrow hqueue hstate hring (tableChange_frame hok ▸ hok)
  · rw [hfin]
    exact .headLeaves _ hrow hqueue hring

/-- The same, guarded by its enabling condition. -/
theorem applicationIfEnabled {c : Instr} {s : State} {q : Request} {tag : Tag} (kind : Kind)
    (hrow : takesRingSlot c = true) (hhead : openHead s = some (q, tag)) :
    Act c s (if applicationEnabled s then finishApplication kind tag (tableChange q s) s else s) := by
  split
  · next hen => exact .application kind hrow hhead hen
  · exact .stays c s

theorem mark (s : State) : Act .mark s (effect .mark s) := by
  refine .guardedRow rfl fun _ => ?_
  split
  · next hhead =>
    obtain ⟨rest, hqueue⟩ := (openHead_eq_some s _ _).1 hhead
    split
    · split
      · next hring => exact .headLeaves _ rfl hqueue ((ringFree_eq_true s).1 hring)
      · exact .stays _ s
    · exact .stays _ s
  · exact .stays _ s

/-- A handover: the head leaves with its refusal, or as the active transfer (R83, R84). -/
theorem handOverIfEnabled {c : Instr} {s : State} {q : Request} {tag : Tag} (k : TransferKind)
    (address count : BitVec 32) (hrow : takesRingSlot c = true) (hhead : openHead s = some (q, tag))
    (hcount : countChecked q = true → 1 ≤ count.toNat ∧ count.toNat ≤ 65536) :
    Act c s (if handoverEnabled s then handOver tag k address.toNat count.toNat s else s) := by
  obtain ⟨rest, hqueue⟩ := (openHead_eq_some s q tag).1 hhead
  split
  · next hen =>
    obtain ⟨hactive, hring⟩ := (handoverEnabled_eq_true s).1 hen
    rcases handOver_cases tag k address.toNat count.toNat s with ⟨status, -, h⟩ | ⟨hrefusal, h⟩ <;> rw [h]
    · exact .headLeaves _ hrow hqueue hring
    · exact .headMoves k hrow hqueue hactive hcount hrefusal
  · exact .stays c s

theorem transferCompletion (s : State) : Act .transferCompletion s (effect .transferCompletion s) := by
  refine .guardedRow rfl fun _ => ?_
  split
  · exact .stays _ s
  · next hactive =>
    split
    · exact .stays _ s
    · next hfinal =>
      split
      · next h =>
        simp only [Bool.and_eq_true, ringFree_eq_true, Bool.not_eq_true'] at h
        exact .transferLeaves _ hactive hfinal h.1 h.2
      · exact .stays _ s

/-! ### The host -/

theorem submit (v : Half) (s : State) : Act (.submit v) s (effect (.submit v) s) := by
  refine .guardedRow rfl fun _ => ?_
  unfold submitStaged
  split
  · exact .hostError _ _ s
  · next hqueue =>
    split
    · exact .hostError _ _ s
    · next hstaged => exact .submits (by omega) hstaged

theorem cancelQueued (c : Instr) (tag : Tag) (s : State) : Act c s (Machine.cancelQueued tag s) := by
  unfold Machine.cancelQueued
  split
  · exact .marksEntry tag
  · exact .hostError _ _ s

theorem cancelTag (c : Instr) (tag : Tag) (s : State) : Act c s (Machine.cancelTag tag s) := by
  unfold Machine.cancelTag
  split
  · next hactive =>
    split
    · next h => exact .transferCut .cancelled hactive (by simpa using h.1)
    · exact .cancelQueued c tag s
  · exact .cancelQueued c tag s

theorem pop (v : Half) (s : State) : Act (.pop v) s (effect (.pop v) s) := by
  refine .guardedRow rfl fun _ => ?_
  unfold popRing
  cases hring : s.ring with
  | nil => exact .hostError _ _ s
  | cons r rest => exact .pops hring

theorem pushSample (c : Instr) (v : Sample) (s : State) : Act c s (Machine.pushSample v s) := by
  unfold Machine.pushSample
  split
  · exact .hostError _ _ s
  · next hactive =>
    split
    · next h =>
      obtain ⟨hfinal, hkind, haccepted⟩ := h
      split
      · exact .hostError _ _ s
      · next hfifo => exact .pushes v hactive (by simpa using hfinal) hkind haccepted (by omega)
    · exact .hostError _ _ s

theorem underrun (c : Instr) (s : State) : Act c s (Machine.hostError .dataUnderrun (readPair 0 s)) :=
  .hostEvents c s _ _

theorem popCell (c : Instr) (s : State) : Act c s (Machine.popCell s) := by
  unfold Machine.popCell
  split
  · next hactive hfifo =>
    split
    · next h => exact .takes hactive (by simpa using h.1) h.2 hfifo
    · exact .underrun c s
  · exact .underrun c s

theorem readWindow (c : Instr) (off : Offset) (s : State) : Act c s (Machine.readWindow off s) := by
  unfold Machine.readWindow
  split
  · exact .popCell c s
  · split
    · exact .host c s _
    · exact .host c s _

theorem dataLo (s : State) : Act .dataLo s (effect .dataLo s) := by
  change Act _ s (if s.held then readHeld s else Machine.popCell s)
  split
  · exact .host _ s _
  · exact .popCell _ s

theorem lowHalfRead (off : Offset) (s : State) : Act (.lowHalfRead off) s (effect (.lowHalfRead off) s) := by
  change Act _ s (if s.held then readHeld s else Machine.readWindow off s)
  split
  · exact .host _ s _
  · exact .readWindow _ off s

/-! ### Memory configuration -/

theorem setMemsize (c : Instr) (code : BitVec 2) (s : State) : Act c s (Machine.setMemsize code s) := by
  unfold Machine.setMemsize
  split
  · exact .stays c s
  · split
    · exact .hostError _ _ s
    · next h => exact .resizes code (by simpa using h)

theorem setRefresh (c : Instr) (on : Bool) (s : State) : Act c s (Machine.setRefresh on s) := by
  unfold Machine.setRefresh
  split
  · exact .stays c s
  · split
    · exact .enablesRefresh
    · exact .disablesRefresh

theorem setRefint (c : Instr) (v : Half) (s : State) : Act c s (Machine.setRefint v s) := by
  unfold Machine.setRefint
  split
  · exact .hostError _ _ s
  · next h => exact .setsRefint _ h

/-! ### Every row -/

/-- A write of a location that only holds registers of the host changes no more than those. -/
theorem writeWindow {c : Instr} (off : Offset) (v : Half) (s : State)
    (h : off.toNat ∉ [0x00, 0x0A, 0x0B, 0x0D, 0x17, 0x18, 0x1D, 0x1F]) : Act c s (Machine.writeWindow off v s) := by
  simp only [List.mem_cons, List.not_mem_nil, or_false, not_or] at h
  unfold Machine.writeWindow
  split
  case h_19 =>
    split_ifs
    · exact .registers ..
    · unfold writeSlot
      split_ifs <;> exact .registers ..
    · exact .stays c s
  all_goals first | exact .registers .. | omega

/-- Every command but a whole-location write of several parts makes one change. -/
theorem of_row {c : Instr} (s : State) (h : ∀ off v, c = .registerWrite off v →
    off.toNat ∉ [0x00, 0x0A, 0x0B, 0x0D, 0x17, 0x18, 0x1D, 0x1F]) : Act c s (effect c s) := by
  cases c
  case tickArrival =>
    refine .guardedRow rfl fun _ => ?_
    split
    · exact .tickArrives _ s
    · exact .stays _ s
  case step => exact .guardedRow rfl fun _ => .stepRequest _ s
  case engineGo => exact .guardedRow rfl fun _ => .goRequest _ s
  case engineStop => exact .guardedRow rfl fun _ => .stopRequest _ s
  case tickSource => exact .guardedRow rfl fun _ => .sourceRequest _ _ s
  case softReset => exact .guardedRow rfl fun _ => .softResets
  case deviceReset => exact .deviceResets
  case pendingStart => exact .pendingStart s
  case glideStage => exact .glideStage s
  case lineWriteStage => exact .lineWriteStage s
  case tapReadStage => exact .tapReadStage s
  case publish => exact .publish s
  case lineWriteGrant => exact .lineWriteGrant s
  case lineWriteCompletion => exact .lineWriteCompletion s
  case tapReadGrant => exact .tapReadGrant s
  case tapReadCompletion => exact .tapReadCompletion s
  case writeBurstGrant => exact .writeBurstGrant s
  case writeBurstCompletion => exact .writeBurstCompletion s
  case readBurstGrant => exact .readBurstGrant s
  case readBurstCompletion => exact .readBurstCompletion s
  case fillBurstGrant => exact .fillBurstGrant s
  case fillBurstCompletion => exact .fillBurstCompletion s
  case refreshGrant => exact .refreshGrant s
  case refreshCompletion => exact .refreshCompletion s
  case refreshTimerExpiry => exact .refreshTimerExpiry s
  case starvationTimerExpiry => exact .starvationTimerExpiry s
  case cancelledHeadCompletion => exact .cancelledHeadCompletion s
  case lineDefine | lineRelease | lineStart | lineFreeze | lineHalt | tapAttach | tapDetach | tapRetarget
      | tapGain =>
    refine .guardedRow rfl fun _ => ?_
    split
    · next hhead => exact .applicationIfEnabled _ rfl hhead
    · exact .stays _ s
  case mark => exact .mark s
  case blockWrite | blockRead | blockFill =>
    refine .guardedRow rfl fun _ => ?_
    split
    · next hhead => exact .handOverIfEnabled _ _ _ rfl hhead (by simp [countChecked])
    · exact .stays _ s
  case transferCompletion => exact .transferCompletion s
  case submit v => exact .submit v s
  case cancel => exact .guardedRow rfl fun _ => .cancelTag _ _ s
  case pop v => exact .pop v s
  case dataHi => exact .guardedRow rfl fun _ => .pushSample _ _ s
  case dataLo => exact .dataLo s
  case lowHalfRead off => exact .lowHalfRead off s
  case memsize => exact .guardedRow rfl fun _ => .setMemsize _ _ s
  case refreshEnable => exact .guardedRow rfl fun _ => .setRefresh _ _ s
  case refint => exact .guardedRow rfl fun _ => .setRefint _ _ s
  case txtimeout => exact .guardedRow rfl fun _ => .setsTimeout _
  case registerWrite off v => exact .guardedRow rfl fun _ => .writeWindow off v s (h off v rfl)
  case rstRelease => exact .releases
  case dramContentsLost => exact .losesContents
  all_goals exact .guardedRow rfl fun _ => .registers ..

/-- Every row of a command makes one change. -/
theorem of_mem_rows {c d : Instr} (s : State) (h : d ∈ rows c) : Act d s (effect d s) := by
  refine of_row s fun off v hd => ?_
  subst hd
  cases c
  case registerWrite off' v' =>
    simp only [rows, writeRows, ctrlRows] at h
    split at h
    case h_1 => split_ifs at h <;> simp at h
    case h_9 =>
      obtain ⟨rfl, -⟩ : off = off' ∧ v = v' := by simpa using h
      simp only [List.mem_cons, List.not_mem_nil, or_false, not_or]
      refine ⟨?_, ?_, ?_, ?_, ?_, ?_, ?_, ?_⟩ <;> assumption
    all_goals simp at h
  all_goals simp [rows] at h

end Act

/-! ### What every change keeps -/

/-- What the changes of a command's rows keep, the command keeps. -/
theorem effect_induction {P : State → Prop} {c : Instr} {s : State}
    (hact : ∀ d ∈ rows c, ∀ a b, Act d a b → P a → P b) (hs : P s) : P (effect c s) := by
  have run : ∀ cs : List Instr, (∀ d ∈ cs, d ∈ rows c) → ∀ a, P a → P (runRows cs a) := by
    intro cs
    induction cs with
    | nil => exact fun _ a ha => ha
    | cons d cs ih =>
      intro hmem a ha
      have hd := hmem d List.mem_cons_self
      exact ih (fun e he => hmem e (List.mem_cons_of_mem d he)) _ (hact d hd _ _ (.of_mem_rows a hd) ha)
  rw [effect_eq_runRows]
  exact run _ (fun _ hd => hd) s hs

/-! ### Which rows a command has -/

/-- The rows that a whole-location write may take besides itself. -/
def isFieldRow : Instr → Bool
  | .softReset | .tickSource _ | .engineStop | .engineGo | .step => true
  | .memsize _ | .refreshEnable _ | .refint _ | .txtimeout _ => true
  | .submit _ | .cancel _ | .pop _ | .dataHi _ => true
  | _ => false

theorem isFieldRow_of_mem_ctrlRows (v : Half) : ∀ e ∈ ctrlRows v, isFieldRow e = true := by
  unfold ctrlRows
  split
  · simp [isFieldRow]
  · simp only [List.forall_mem_cons, List.forall_mem_append]
    refine ⟨rfl, ⟨?_, ?_⟩, ?_⟩ <;> split <;> simp [isFieldRow]

/-- A CTRL write resets only if it carries SOFT_RESET (R47). -/
theorem softReset_mem_ctrlRows {v : Half} (h : Instr.softReset ∈ ctrlRows v) : v.getLsbD 3 = true := by
  by_contra hreset
  unfold ctrlRows at h
  rw [if_neg hreset] at h
  split_ifs at h <;> simp at h

/-- A row of a command is the command itself or a field of a whole-location write. -/
theorem mem_rows {c d : Instr} (h : d ∈ rows c) : d = c ∨ isFieldRow d = true := by
  cases c
  case registerWrite off v =>
    simp only [rows, writeRows] at h
    split at h
    case h_1 => exact .inr (isFieldRow_of_mem_ctrlRows v d h)
    case h_2 => rcases List.mem_pair.1 h with rfl | rfl <;> exact .inr rfl
    case h_9 => exact .inl (List.mem_singleton.1 h)
    all_goals obtain rfl := List.mem_singleton.1 h; exact .inr rfl
  all_goals exact .inl (List.mem_singleton.1 h)

/-- A row that is no field of a write is the command itself. -/
theorem eq_of_mem_rows {c d : Instr} (h : d ∈ rows c) (hd : isFieldRow d = false) : d = c :=
  (mem_rows h).resolve_right (by simp [hd])

theorem submit_pop_not_mem_ctrlRows (v w : Half) :
    Instr.submit w ∉ ctrlRows v ∧ Instr.pop w ∉ ctrlRows v := by
  unfold ctrlRows
  constructor <;> split_ifs <;> simp

/-- Only the resets, by their rows or as a CTRL write, have a reset among their rows. -/
theorem isReset_of_mem_rows {c : Instr} (h : Instr.softReset ∈ rows c ∨ Instr.deviceReset ∈ rows c) :
    isReset c := by
  rcases h with h | h
  · cases c
    case softReset => exact .inr (.inl rfl)
    case registerWrite off v =>
      simp only [rows, writeRows] at h
      split at h
      case h_1 hoff =>
        exact .inr (.inr ⟨v, softReset_mem_ctrlRows h, by rw [BitVec.eq_of_toNat_eq (y := (0 : BitVec 7)) hoff]⟩)
      all_goals simp at h
    all_goals simp [rows] at h
  · exact .inl (eq_of_mem_rows h rfl).symm

theorem rows_of_isSubmission {c : Instr} (h : isSubmission c) : ∃ v, rows c = [.submit v] := by
  rcases h with ⟨v, rfl⟩ | ⟨v, rfl⟩ <;> exact ⟨v, rfl⟩

theorem rows_of_isPop {c : Instr} (h : isPop c) : ∃ v, rows c = [.pop v] := by
  rcases h with ⟨v, rfl⟩ | ⟨v, rfl⟩ <;> exact ⟨v, rfl⟩

theorem isSubmission_of_mem_rows {c : Instr} {w : Half} (h : Instr.submit w ∈ rows c) : isSubmission c := by
  cases c
  case submit v => exact .inl ⟨v, rfl⟩
  case registerWrite off v =>
    simp only [rows, writeRows] at h
    split at h
    case h_1 => exact absurd h (submit_pop_not_mem_ctrlRows v w).1
    case h_5 hoff => exact .inr ⟨v, by rw [BitVec.eq_of_toNat_eq (y := (0x17 : BitVec 7)) hoff]⟩
    all_goals simp at h
  all_goals simp [rows] at h

theorem isPop_of_mem_rows {c : Instr} {w : Half} (h : Instr.pop w ∈ rows c) : isPop c := by
  cases c
  case pop v => exact .inl ⟨v, rfl⟩
  case registerWrite off v =>
    simp only [rows, writeRows] at h
    split at h
    case h_1 => exact absurd h (submit_pop_not_mem_ctrlRows v w).2
    case h_7 hoff => exact .inr ⟨v, by rw [BitVec.eq_of_toNat_eq (y := (0x1D : BitVec 7)) hoff]⟩
    all_goals simp at h
  all_goals simp [rows] at h

/-- What every change keeps, every step keeps, if it does not look at the waiting commands. -/
theorem step_induction {P : State → Prop} (hpending : ∀ s q, P s → P { s with pending := q })
    (hact : ∀ c a b, Act c a b → P a → P b) {s t : State} (hstep : step s = .next t) (hs : P s) : P t := by
  unfold step at hstep
  split at hstep
  · obtain rfl : tclkPeriod s = t := Host.Outcome.next.inj hstep
    refine whenReleased_keeps hs fun _ => ?_
    exact hact .starvationTimerExpiry _ _ (.countStarvationTimer _ _)
      (hact .refreshTimerExpiry _ _ (.countRefreshTimer _ s) hs)
  · rw [← effect_of_exec hstep]
    exact effect_induction (fun d _ => hact d) (hpending s _ hs)

end Sys2Proof.Machine
end

section
/-! Invariants of the two tables: regions and delays, the glide count, and the active transfer's distance from
RUNNING lines (R1, R11, R13, R23, R31). -/

namespace Sys2Proof.Machine

/-! ### Records of the tables -/

theorem getElem_set_fin {α : Type} {n : Nat} (v : Vector α n) (i j : Fin n) (x : α) :
    (v.set i x)[j] = if j = i then x else v[j] := by
  simp [Vector.getElem_set, Fin.ext_iff, eq_comm]

theorem someLine_eq_false (s : State) (p : Fin 32 → LineRec → Bool) :
    someLine s p = false ↔ ∀ l : Fin 32, ∀ r ∈ s.lines[l], p l r = false := by
  rw [← Bool.not_eq_true, someLine_eq_true]
  simp

theorem someTap_eq_false (s : State) (p : TapRec → Bool) :
    someTap s p = false ↔ ∀ t : Fin 128, ∀ r ∈ s.taps[t], p r = false := by
  rw [← Bool.not_eq_true, someTap_eq_true]
  simp

theorem reset_lines (l : Fin 32) : State.reset.lines[l] = none := by
  simp [State.reset]

theorem reset_taps (t : Fin 128) : State.reset.taps[t] = none := by
  simp [State.reset]

/-! ### Requests in the queue -/

theorem markOldest_map_request (tag : Tag) (queue : List Entry) :
    (markOldest tag queue).map Entry.request = queue.map Entry.request := by
  induction queue with
  | nil => rfl
  | cons e rest ih =>
    unfold markOldest
    split
    · rfl
    · rw [List.map_cons, List.map_cons, ih]

/-- What every submission gives its request, every queued request has. -/
theorem act_keeps_requests {p : Request → Prop} {c : Instr} {s t : State} (hact : Act c s t)
    (hp : ∀ r q tag, stagedRequest r = .ok (q, tag) → p q) (h : ∀ e ∈ s.req.queue, p e.request) :
    ∀ e ∈ t.req.queue, p e.request := by
  cases hact with
  | headLeaves r _ hqueue => exact fun e he => h e (List.mem_of_mem_tail he)
  | headApplies r _ hqueue => exact fun e he => h e (List.mem_of_mem_tail he)
  | headMoves k _ hqueue => exact fun e he => h e (List.mem_of_mem_tail he)
  | submits _ hstaged =>
    intro e he
    rcases List.mem_append.1 he with he | he
    · exact h e he
    · obtain rfl := List.mem_singleton.1 he
      exact hp _ _ _ hstaged
  | marksEntry tag =>
    intro e he
    have hmem : e.request ∈ s.req.queue.map Entry.request :=
      markOldest_map_request tag s.req.queue ▸ List.mem_map_of_mem he
    obtain ⟨d, hd, heq⟩ := List.mem_map.1 hmem
    exact heq ▸ h d hd
  | softResets => exact fun _ he => absurd he List.not_mem_nil
  | deviceResets => exact fun _ he => absurd he List.not_mem_nil
  | _ => exact h

theorem stagedRequest_eq_ok {r : RequestUnit} {q : Request} {tag : Tag} (h : stagedRequest r = .ok (q, tag)) :
    ∃ k, kindOfCode (r.kindTag.toNat / 256) = some k ∧ parseArgs r.args k = some q ∧
      tag = r.kindTag.setWidth 8 := by
  unfold stagedRequest at h
  split at h
  · cases h
  · next k hk =>
    split at h
    · cases h
    · next hq => cases h; exact ⟨k, hk, hq, rfl⟩

theorem parseArgs_lengthChecked {a : Vector Half 6} {k : Kind} {q : Request} (h : parseArgs a k = some q) :
    lengthChecked q = true := by
  have hkind := parseArgs_kind a k q h
  cases q with
  | lineDefine l base n src =>
    obtain rfl : Kind.lineDefine = k := hkind
    simp only [parseArgs, Option.bind_eq_bind, Option.bind_eq_some_iff, Option.pure_def, Option.some.injEq,
      Request.lineDefine.injEq, parseLength_eq_some] at h
    obtain ⟨_, _, _, ⟨rfl, hlow, hhigh⟩, _, _, rfl, rfl, rfl, rfl⟩ := h
    simp [lengthChecked, hlow, hhigh]
  | _ => rfl

theorem parseArgs_countChecked {a : Vector Half 6} {k : Kind} {q : Request} (h : parseArgs a k = some q) :
    countChecked q = true := by
  have hkind := parseArgs_kind a k q h
  cases q with
  | blockWrite | blockRead | blockFill =>
    obtain rfl := hkind
    simp only [parseArgs, requestKind, Option.bind_eq_bind, Option.bind_eq_some_iff, Option.pure_def,
      Option.some.injEq, Request.blockWrite.injEq, Request.blockRead.injEq, Request.blockFill.injEq,
      parseCount_eq_some] at h
    obtain ⟨_, ⟨rfl, hlow, hhigh⟩, rfl, rfl, -⟩ := h
    simp [countChecked, hlow, hhigh]
  | _ => rfl

/-! ### Regions (R1, R11) -/

theorem LineRec.inRange_iff (mem : Nat) (r : LineRec) :
    r.inRange mem = true ↔ 16 ≤ r.length ∧ r.length ≤ 1048576 ∧ r.base + r.length ≤ mem ∧
      r.head < r.length ∧ r.fill ≤ r.length ∧ loopOf r.mode < r.length := by
  simp [LineRec.inRange, and_assoc]

/-- The part of `LinesSound` that speaks of the Line Table. -/
def RegionsSound (mem : Nat) (lines : Vector (Option LineRec) 32) : Prop :=
  (∀ l : Fin 32, ∀ r ∈ lines[l], r.inRange mem = true) ∧
    ∀ l k : Fin 32, l ≠ k → ∀ r ∈ lines[l], ∀ q ∈ lines[k],
      rangesOverlap r.base r.length q.base q.length = false

theorem linesSound_iff (s : State) : LinesSound s ↔
    RegionsSound (memoryCells s.port.memsize) s.lines ∧ ∀ e ∈ s.req.queue, lengthChecked e.request = true :=
  and_assoc.symm

section Regions

variable {mem : Nat} {lines : Vector (Option LineRec) 32}

/-- A line's record may be replaced by one in range whose region is clear of every other line's. -/
theorem RegionsSound.set (h : RegionsSound mem lines) (l : Fin 32) (x : Option LineRec)
    (hrange : ∀ r ∈ x, r.inRange mem = true)
    (hclear : ∀ r ∈ x, ∀ k : Fin 32, k ≠ l → ∀ q ∈ lines[k],
      rangesOverlap r.base r.length q.base q.length = false) :
    RegionsSound mem (lines.set l x) := by
  refine ⟨fun k r hr => ?_, fun k j hkj r hr q hq => ?_⟩
  · rw [getElem_set_fin] at hr
    split at hr
    · exact hrange r hr
    · exact h.1 k r hr
  · rw [getElem_set_fin] at hr hq
    split at hr
    · next hk =>
      rw [if_neg fun hj => hkj (hk.trans hj.symm)] at hq
      exact hclear r hr j (fun hj => hkj (hk.trans hj.symm)) q hq
    · next hk =>
      split at hq
      · rw [rangesOverlap_comm]; exact hclear q hq k hk r hr
      · exact h.2 k j hkj r hr q hq

/-- A record may change as long as it keeps its region and stays in range. -/
theorem RegionsSound.set_same_region (h : RegionsSound mem lines) {l : Fin 32} {r r' : LineRec}
    (hl : lines[l] = some r) (hbase : r'.base = r.base) (hlength : r'.length = r.length)
    (hrange : r.inRange mem = true → r'.inRange mem = true) : RegionsSound mem (lines.set l (some r')) := by
  refine h.set l (some r') ?_ ?_ <;> rintro _ ⟨⟩
  · exact hrange (h.1 l r hl)
  · intro k hk q hq
    rw [hbase, hlength]
    exact h.2 l k (Ne.symm hk) r hl q hq

theorem regionsSound_none : RegionsSound mem (Vector.replicate 32 none) := by
  constructor <;> intro l <;> simp

end Regions

/-- The grant of a line write keeps the record in range (R4). -/
theorem LineRec.inRange_written {mem : Nat} {r : LineRec} (h : r.inRange mem = true) :
    r.written.inRange mem = true := by
  rw [LineRec.inRange_iff] at h ⊢
  obtain ⟨hmin, hmax, hmem, -, hfill, hloop⟩ := h
  have hfill' : (if r.fill < r.length then r.fill + 1 else r.fill) ≤ r.length := by split <;> omega
  exact ⟨hmin, hmax, hmem, Nat.mod_lt _ (by omega), hfill', hloop⟩

/-- A new mode whose loop fits keeps the record in range. -/
theorem LineRec.inRange_mode {mem : Nat} {r : LineRec} (mode : LineMode) (h : r.inRange mem = true)
    (hloop : 16 ≤ r.length → loopOf mode < r.length) : ({ r with mode := mode } : LineRec).inRange mem = true := by
  rw [LineRec.inRange_iff] at h ⊢
  exact ⟨h.1, h.2.1, h.2.2.1, h.2.2.2.1, h.2.2.2.2.1, hloop h.1⟩

theorem LineRec.inRange_resized {mem mem' : Nat} {r : LineRec} (h : r.inRange mem = true)
    (hfits : r.base + r.length ≤ mem') : r.inRange mem' = true := by
  rw [LineRec.inRange_iff] at h ⊢
  exact ⟨h.1, h.2.1, hfits, h.2.2.2⟩

/-- A started line is in range (R19). -/
theorem LineRec.inRange_started {mem : Nat} (m : StartMode) {r : LineRec} (h : r.inRange mem = true) :
    (r.started m).inRange mem = true := by
  rw [LineRec.inRange_iff] at h
  rw [LineRec.started_eq, LineRec.inRange_iff]
  obtain ⟨hmin, hmax, hmem, hhead, hfill, -⟩ := h
  refine ⟨hmin, hmax, hmem, ?_, ?_, ?_⟩ <;> simp only [loopOf] <;> (try split_ifs) <;> omega

theorem set_map_eq {lines : Vector (Option LineRec) 32} {l : Fin 32} {P : Vector (Option LineRec) 32 → Prop}
    (f : LineRec → LineRec) (h : P lines) (hset : ∀ r, lines[l] = some r → P (lines.set l (some (f r)))) :
    P (lines.set l ((lines[l]).map f)) := by
  cases hl : lines[l] with
  | some r => exact hset r hl
  | none =>
    have hsame : lines.set l none = lines := by
      rw [← hl]
      simp
    rw [Option.map_none, hsame]
    exact h

/-- A table request keeps the regions of the lines in the memory and disjoint (R15 to R21). -/
theorem regionsSound_tableChange {s s' : State} {q : Request}
    (h : RegionsSound (memoryCells s.port.memsize) s.lines) (hq : lengthChecked q = true)
    (hchange : tableChange q s = .ok s') : RegionsSound (memoryCells s.port.memsize) s'.lines := by
  cases q <;> simp only [tableChange] at hchange
  case lineDefine l base n src =>
    obtain ⟨-, hmem, hover, -, rfl⟩ := defineLine_eq_ok hchange
    simp only [lengthChecked, Bool.and_eq_true, decide_eq_true_eq] at hq
    refine h.set l _ ?_ ?_ <;> rintro _ ⟨⟩
    · exact (LineRec.inRange_iff _ _).2 ⟨hq.1, hq.2, hmem, by simp only; omega, by simp, by simp only [loopOf]; omega⟩
    · intro k hk r hr
      have := (someLine_eq_false s _).1 hover k r hr
      simpa [hk] using this
  case lineRelease l =>
    obtain ⟨-, -, rfl⟩ := releaseLine_eq_ok hchange
    refine h.set l none ?_ ?_ <;> rintro _ ⟨⟩
  case lineStart l m =>
    obtain ⟨r, hr, -, -, rfl⟩ := startLine_eq_ok hchange
    obtain ⟨hbase, hlength, -, -⟩ := r.started_region m
    exact h.set_same_region hr hbase hlength (LineRec.inRange_started m)
  case lineFreeze l =>
    obtain ⟨r, hr, -, rfl⟩ := freezeLine_eq_ok hchange
    exact h.set_same_region hr rfl rfl fun hin => LineRec.inRange_mode _ hin fun hmin => by
      simp only [loopOf]; omega
  case lineHalt l =>
    obtain ⟨r, hr, -, rfl⟩ := haltLine_eq_ok hchange
    exact h.set_same_region hr rfl rfl fun hin => LineRec.inRange_mode _ hin fun hmin => by
      simp only [loopOf]; omega
  case tapAttach => obtain ⟨-, -, rfl⟩ := attachTap_eq_ok hchange; exact h
  case tapDetach => obtain ⟨r, -, rfl⟩ := detachTap_eq_ok hchange; cases r.gliding <;> exact h
  case tapRetarget => obtain ⟨r, lr, -, -, -, rfl⟩ := retargetTap_eq_ok hchange; rw [retargetCount_eq]; exact h
  case tapGain => obtain ⟨r, -, rfl⟩ := gainTap_eq_ok hchange; exact h
  all_goals cases hchange

/-- A MEMSIZE that is not refused holds every defined region (R130). -/
theorem memsizeRefused_eq_false {code : BitVec 2} {s : State} (h : memsizeRefused code s = false) :
    s.eng.state = .stopped ∧ s.tx.active = none ∧
      ∀ l : Fin 32, ∀ r ∈ s.lines[l], r.base + r.length ≤ memoryCells code := by
  simp only [memsizeRefused, Bool.or_eq_false_iff, decide_eq_false_iff_not, not_not, someLine_eq_false] at h
  obtain ⟨⟨hstate, hactive⟩, hlines⟩ := h
  exact ⟨hstate, by simpa using hactive, fun l r hr => by simpa using hlines l r hr⟩

theorem act_keeps_linesSound {c : Instr} {s t : State} (hact : Act c s t) (h : LinesSound s) : LinesSound t := by
  have hqueue := act_keeps_requests (p := fun q => lengthChecked q = true) hact
    (fun r q tag hr => by obtain ⟨k, -, hq, -⟩ := stagedRequest_eq_ok hr; exact parseArgs_lengthChecked hq)
    h.2.2
  refine (linesSound_iff t).2 ⟨?_, hqueue⟩
  have hregions := ((linesSound_iff s).1 h).1
  cases hact with
  | loopAdvances hwaits hitem hmode =>
    exact hregions.set_same_region (currentItem_line hitem).2.1 rfl rfl fun hin =>
      LineRec.inRange_mode _ hin fun hmin => Nat.mod_lt _ (by omega)
  | lineWriteGranted =>
    exact set_map_eq LineRec.written hregions fun r hr => hregions.set_same_region hr rfl rfl LineRec.inRange_written
  | headApplies r _ hq _ _ hchange =>
    have hlength : lengthChecked _ = true := h.2.2 _ (hq ▸ List.mem_cons_self)
    have hchanged := regionsSound_tableChange hregions hlength hchange
    exact hchanged
  | resizes code hrefused =>
    obtain ⟨-, -, hfits⟩ := memsizeRefused_eq_false hrefused
    exact ⟨fun l r hr => LineRec.inRange_resized (hregions.1 l r hr) (hfits l r hr), hregions.2⟩
  | softResets => exact regionsSound_none
  | deviceResets => exact regionsSound_none
  | _ => exact hregions

/-- Settles O49: no change breaks the regions; only a table request, a stage turn, a line write's grant, a new
MEMSIZE and the resets touch them. -/
theorem stepKeepsRegionsDisjoint : Obligations.StepKeepsRegionsDisjoint := by
  unfold Obligations.StepKeepsRegionsDisjoint
  exact fun s t h hstep => step_induction (fun _ _ hs => hs) (fun _ _ _ => act_keeps_linesSound) hstep h

/-! ### Delays (R23) -/

/-- `TapsSound` as a statement about the two tables. -/
def TapsFit (lines : Vector (Option LineRec) 32) (taps : Vector (Option TapRec) 128) : Prop :=
  ∀ t : Fin 128, ∀ r ∈ taps[t], ∃ lr, lines[r.line] = some lr ∧ r.current < lr.length ∧ r.target < lr.length

theorem tapsSound_iff (s : State) : TapsSound s ↔ TapsFit s.lines s.taps := by
  simp [TapsSound, TapsFit, Option.any_eq_true]

section Delays

variable {lines : Vector (Option LineRec) 32} {taps : Vector (Option TapRec) 128}

/-- A line's record may change while its taps still fit it. -/
theorem TapsFit.setLine (h : TapsFit lines taps) (l : Fin 32) (x : Option LineRec)
    (hfit : ∀ t : Fin 128, ∀ r ∈ taps[t], r.line = l →
      ∃ lr, x = some lr ∧ r.current < lr.length ∧ r.target < lr.length) : TapsFit (lines.set l x) taps := by
  intro t r hr
  rw [getElem_set_fin]
  split
  · next hl => exact hfit t r hr hl
  · exact h t r hr

theorem TapsFit.setLine_same_length (h : TapsFit lines taps) {l : Fin 32} {lr lr' : LineRec}
    (hl : lines[l] = some lr) (hlength : lr'.length = lr.length) : TapsFit (lines.set l (some lr')) taps := by
  refine h.setLine l _ fun t r hr hline => ?_
  subst hline
  obtain ⟨lr₀, hlr₀, hfit⟩ := h t r hr
  obtain rfl := Option.some.inj (hl.symm.trans hlr₀)
  exact ⟨lr', rfl, hlength ▸ hfit⟩

/-- A tap's record may change to one that fits its line. -/
theorem TapsFit.setTap (h : TapsFit lines taps) (t : Fin 128) (x : Option TapRec)
    (hfit : ∀ r ∈ x, ∃ lr, lines[r.line] = some lr ∧ r.current < lr.length ∧ r.target < lr.length) :
    TapsFit lines (taps.set t x) := by
  intro u r hr
  rw [getElem_set_fin] at hr
  split at hr
  · exact hfit r hr
  · exact h u r hr

theorem tapsFit_none : TapsFit lines (Vector.replicate 128 none) := by
  intro t
  simp

end Delays

/-- A glide moves a tap's delay between its two ends (R33). -/
theorem TapRec.glided_current_le (r : TapRec) : r.glided.current ≤ max r.current r.target := by
  simp only [TapRec.glided]
  split_ifs <;> omega

/-- A table request keeps every tap's delays below its line's length (R16, R17, R26, R28). -/
theorem tapsFit_tableChange {s s' : State} {q : Request} (h : TapsFit s.lines s.taps)
    (hchange : tableChange q s = .ok s') : TapsFit s'.lines s'.taps := by
  cases q <;> simp only [tableChange] at hchange
  case lineDefine l base n src =>
    obtain ⟨-, -, -, hbeyond, rfl⟩ := defineLine_eq_ok hchange
    refine h.setLine l _ fun t r hr hline => ⟨_, rfl, ?_⟩
    obtain ⟨lr, hlr, -⟩ := h t r hr
    have hfits := (someTap_eq_false s _).1 (hbeyond (by rw [← hline, hlr]; rfl)) t r hr
    simpa [hline] using hfits
  case lineRelease l =>
    obtain ⟨-, hcount, rfl⟩ := releaseLine_eq_ok hchange
    refine h.setLine l _ fun t r hr hline => absurd hcount ?_
    exact (tapCount_ne_zero s l).2 ⟨t, r, hr, hline⟩
  case lineStart l m =>
    obtain ⟨r, hr, -, -, rfl⟩ := startLine_eq_ok hchange
    exact h.setLine_same_length hr (r.started_region m).2.1
  case lineFreeze l => obtain ⟨r, hr, -, rfl⟩ := freezeLine_eq_ok hchange; exact h.setLine_same_length hr rfl
  case lineHalt l => obtain ⟨r, hr, -, rfl⟩ := haltLine_eq_ok hchange; exact h.setLine_same_length hr rfl
  case tapAttach t l delay b g =>
    obtain ⟨-, ⟨lr, hlr, hdelay⟩, rfl⟩ := attachTap_eq_ok hchange
    refine h.setTap t _ ?_
    rintro _ ⟨⟩
    exact ⟨lr, hlr, hdelay, hdelay⟩
  case tapDetach t =>
    obtain ⟨r, -, rfl⟩ := detachTap_eq_ok hchange
    have hfree : TapsFit s.lines (s.taps.set t none) := h.setTap t none (by rintro _ ⟨⟩)
    cases r.gliding <;> exact hfree
  case tapRetarget t target k =>
    obtain ⟨r, lr, hr, hlr, htarget, rfl⟩ := retargetTap_eq_ok hchange
    rw [retargetCount_eq]
    refine h.setTap t _ ?_
    rintro _ ⟨⟩
    obtain ⟨lr', hlr', hcurrent, -⟩ := h t r hr
    obtain rfl := Option.some.inj (hlr.symm.trans hlr')
    exact ⟨lr, hlr, hcurrent, htarget⟩
  case tapGain t g b =>
    obtain ⟨r, hr, rfl⟩ := gainTap_eq_ok hchange
    refine h.setTap t _ ?_
    rintro _ ⟨⟩
    exact h t r hr
  all_goals cases hchange

theorem act_keeps_tapsFit {c : Instr} {s t : State} (hact : Act c s t) (h : TapsFit s.lines s.taps) :
    TapsFit t.lines t.taps := by
  cases hact with
  | @glides s t r ev hitem =>
    obtain ⟨-, -, -, -, hr, -⟩ := currentItem_glide hitem
    refine h.setTap t _ ?_
    rintro _ ⟨⟩
    obtain ⟨lr, hlr, hcurrent, htarget⟩ := h t r hr
    exact ⟨lr, hlr, r.glided_current_le.trans_lt (max_lt hcurrent htarget), htarget⟩
  | loopAdvances hwaits hitem hmode => exact h.setLine_same_length (currentItem_line hitem).2.1 rfl
  | lineWriteGranted =>
    exact set_map_eq (P := fun lines => TapsFit lines s.taps) LineRec.written h fun r hr =>
      h.setLine_same_length hr rfl
  | headApplies r _ _ _ _ hchange =>
    have hchanged := tapsFit_tableChange h hchange
    exact hchanged
  | softResets => exact tapsFit_none
  | deviceResets => exact tapsFit_none
  | _ => exact h

/-- Settles O50: a tap's delays move between two values below its line's length, and a length changes only
where its taps fit. -/
theorem stepKeepsTapsOnTheirLines : Obligations.StepKeepsTapsOnTheirLines := by
  unfold Obligations.StepKeepsTapsOnTheirLines
  simp only [tapsSound_iff]
  exact fun s t h hstep => step_induction (P := fun s => TapsFit s.lines s.taps) (fun _ _ hs => hs)
    (fun _ _ _ => act_keeps_tapsFit) hstep h

/-! ### The glide count (R23, R31) -/

/-- The number of gliding taps of a table. -/
def gliders (taps : Vector (Option TapRec) 128) : Nat :=
  (List.finRange 128).countP fun t => (taps[t]).any TapRec.gliding

/-- One where a record glides, zero elsewhere. -/
def glides (x : Option TapRec) : Nat := if x.any TapRec.gliding then 1 else 0

/-- Changing one element of a counted predicate changes the count by that element. -/
theorem countP_update {α : Type} [DecidableEq α] (p q : α → Bool) (a : α) :
    ∀ l : List α, l.Nodup → a ∈ l → (∀ b ≠ a, q b = p b) →
      l.countP q + (if p a then 1 else 0) = l.countP p + (if q a then 1 else 0) := by
  intro l hnodup hmem heq
  induction l with
  | nil => cases hmem
  | cons b l ih =>
    obtain ⟨hb, hl⟩ := List.nodup_cons.1 hnodup
    rw [List.countP_cons, List.countP_cons]
    by_cases hba : b = a
    · subst hba
      have hrest : l.countP q = l.countP p :=
        List.countP_congr fun x hx => by rw [heq x fun hxb => hb (hxb ▸ hx)]
      omega
    · have := ih hl ((List.mem_cons.1 hmem).resolve_left (Ne.symm hba))
      rw [heq b hba]
      omega

/-- Replacing a tap's record changes the number of gliding taps by that record. -/
theorem gliders_set (taps : Vector (Option TapRec) 128) (t : Fin 128) (x : Option TapRec) :
    gliders (taps.set t x) + glides taps[t] = gliders taps + glides x := by
  have := countP_update (fun u : Fin 128 => (taps[u]).any TapRec.gliding)
    (fun u : Fin 128 => ((taps.set t x)[u]).any TapRec.gliding) t (List.finRange 128) (List.nodup_finRange 128)
    (List.mem_finRange t) (fun u hu => by rw [getElem_set_fin, if_neg hu])
  rwa [getElem_set_fin, if_pos rfl] at this

/-- `GlidesSound` as a statement about the Tap Table and the count. -/
def GlidesCounted (taps : Vector (Option TapRec) 128) (count : Nat) : Prop :=
  (∀ t : Fin 128, ∀ r ∈ taps[t], r.gliding = decide (r.target ≠ r.current)) ∧ count = gliders taps

theorem glidesSound_iff (s : State) : GlidesSound s ↔ GlidesCounted s.taps s.glideCount := Iff.rfl

section Glides

variable {taps : Vector (Option TapRec) 128} {count : Nat}

/-- A tap's record may be replaced by one whose state follows its delays, if the count follows the state. -/
theorem GlidesCounted.set (h : GlidesCounted taps count) (t : Fin 128) (x : Option TapRec) (count' : Nat)
    (hstate : ∀ r ∈ x, r.gliding = decide (r.target ≠ r.current))
    (hcount : count' + glides taps[t] = count + glides x) : GlidesCounted (taps.set t x) count' := by
  refine ⟨fun u r hr => ?_, ?_⟩
  · rw [getElem_set_fin] at hr
    split at hr
    · exact hstate r hr
    · exact h.1 u r hr
  · have := gliders_set taps t x
    have := h.2
    omega

/-- A gliding tap is among those counted. -/
theorem GlidesCounted.pos (h : GlidesCounted taps count) {t : Fin 128} {r : TapRec} (hr : taps[t] = some r)
    (hg : r.gliding = true) : 1 ≤ count := by
  rw [h.2]
  exact List.countP_pos_iff.2 ⟨t, List.mem_finRange t, by simp [hr, hg]⟩

theorem glidesCounted_none : GlidesCounted (Vector.replicate 128 none) 0 := by
  refine ⟨fun t => by simp, ?_⟩
  symm
  simp [gliders]

end Glides

theorem glides_none : glides none = 0 := rfl

theorem glides_some (r : TapRec) : glides (some r) = if r.gliding then 1 else 0 := rfl

/-- A table request keeps the glide count in step with the taps (R26 to R29). -/
theorem glidesCounted_tableChange {s s' : State} {q : Request} (h : GlidesCounted s.taps s.glideCount)
    (hchange : tableChange q s = .ok s') : GlidesCounted s'.taps s'.glideCount := by
  cases q <;> simp only [tableChange] at hchange
  case lineDefine => obtain ⟨-, -, -, -, rfl⟩ := defineLine_eq_ok hchange; exact h
  case lineRelease => obtain ⟨-, -, rfl⟩ := releaseLine_eq_ok hchange; exact h
  case lineStart => obtain ⟨r, -, -, -, rfl⟩ := startLine_eq_ok hchange; exact h
  case lineFreeze => obtain ⟨r, -, -, rfl⟩ := freezeLine_eq_ok hchange; exact h
  case lineHalt => obtain ⟨r, -, -, rfl⟩ := haltLine_eq_ok hchange; exact h
  case tapAttach t l delay b g =>
    obtain ⟨hfree, -, rfl⟩ := attachTap_eq_ok hchange
    refine h.set t _ _ ?_ (by rw [hfree]; rfl)
    rintro _ ⟨⟩
    simp
  case tapDetach t =>
    obtain ⟨r, hr, rfl⟩ := detachTap_eq_ok hchange
    cases hg : r.gliding with
    | true =>
      have := h.pos hr hg
      refine h.set t none (s.glideCount - 1) (by rintro _ ⟨⟩) ?_
      rw [hr, glides_some, glides_none, hg, if_pos rfl]
      omega
    | false => exact h.set t none s.glideCount (by rintro _ ⟨⟩) (by rw [hr, glides_some, hg]; rfl)
  case tapRetarget t target k =>
    obtain ⟨r, lr, hr, -, -, rfl⟩ := retargetTap_eq_ok hchange
    rw [retargetCount_eq]
    refine h.set t _ _ (by rintro _ ⟨⟩; rfl) ?_
    have hpos := fun hg => h.pos hr hg
    rw [hr, glides_some, glides_some]
    simp only [setTap_glideCount]
    cases hg : r.gliding
    · by_cases htarget : target.toNat = r.current <;> simp [htarget]
    · have := hpos hg
      by_cases htarget : target.toNat = r.current <;> simp [htarget]
      omega
  case tapGain t g b =>
    obtain ⟨r, hr, rfl⟩ := gainTap_eq_ok hchange
    exact h.set t _ s.glideCount (by rintro _ ⟨⟩; exact h.1 t r hr) (by rw [hr]; rfl)
  all_goals cases hchange

theorem act_keeps_glidesCounted {c : Instr} {s t : State} (hact : Act c s t)
    (h : GlidesCounted s.taps s.glideCount) : GlidesCounted t.taps t.glideCount := by
  cases hact with
  | @glides s t r ev hitem =>
    obtain ⟨-, -, -, -, hr, hg⟩ := currentItem_glide hitem
    have := h.pos hr hg
    refine h.set t _ _ ?_ ?_
    · rintro _ ⟨⟩
      exact decide_eq_decide.2 ne_comm
    · rw [hr, glides_some, glides_some, hg, if_pos rfl]
      cases r.glided.gliding <;> simp
      omega
  | headApplies r _ _ _ _ hchange =>
    have hchanged := glidesCounted_tableChange h hchange
    exact hchanged
  | softResets => exact glidesCounted_none
  | deviceResets => exact glidesCounted_none
  | _ => exact h

/-- Settles O51: wherever a tap's record changes, the count changes by what that record adds to it. -/
theorem stepKeepsGlideCount : Obligations.StepKeepsGlideCount := by
  unfold Obligations.StepKeepsGlideCount
  exact fun s t h hstep => step_induction (P := fun s => GlidesCounted s.taps s.glideCount) (fun _ _ hs => hs)
    (fun _ _ _ => act_keeps_glidesCounted) hstep h

/-! ### The active transfer and the RUNNING lines (R13) -/

/-- Every RUNNING line of the table is clear of a range. -/
def ClearOfRunning (lines : Vector (Option LineRec) 32) (address count : Nat) : Prop :=
  ∀ l : Fin 32, ∀ r ∈ lines[l], r.mode = .running → rangesOverlap r.base r.length address count = false

theorem transferClear_iff (s : State) : TransferClearOfRunningLines s ↔
    ∀ x ∈ s.tx.active, ClearOfRunning s.lines x.address x.count :=
  ⟨fun h x hx l r hr hm => h l r hr hm x hx, fun h l r hr hm x hx => h x hx l r hr hm⟩

section Clear

variable {lines : Vector (Option LineRec) 32} {address count : Nat}

/-- A line's record may change to one that does not run, or whose region is clear of the range. -/
theorem ClearOfRunning.set (h : ClearOfRunning lines address count) (l : Fin 32) (x : Option LineRec)
    (hx : ∀ r ∈ x, r.mode = .running → rangesOverlap r.base r.length address count = false) :
    ClearOfRunning (lines.set l x) address count := by
  intro k r hr hm
  rw [getElem_set_fin] at hr
  split at hr
  · exact hx r hr hm
  · exact h k r hr hm

theorem ClearOfRunning.set_written (h : ClearOfRunning lines address count) (l : Fin 32) :
    ClearOfRunning (lines.set l ((lines[l]).map LineRec.written)) address count := by
  refine h.set l _ fun r hr hm => ?_
  obtain ⟨r₀, hr₀, rfl⟩ := Option.map_eq_some_iff.1 hr
  exact h l r₀ hr₀ hm

end Clear

/-- A table request takes no line to RUNNING over the active transfer (R18). -/
theorem clearOfRunning_tableChange {s s' : State} {q : Request} {x : Transfer} (hactive : s.tx.active = some x)
    (h : ClearOfRunning s.lines x.address x.count) (hchange : tableChange q s = .ok s') :
    ClearOfRunning s'.lines x.address x.count := by
  cases q <;> simp only [tableChange] at hchange
  case lineDefine l _ _ _ => obtain ⟨-, -, -, -, rfl⟩ := defineLine_eq_ok hchange; exact h.set l _ (by rintro _ ⟨⟩ ⟨⟩)
  case lineRelease l => obtain ⟨-, -, rfl⟩ := releaseLine_eq_ok hchange; exact h.set l _ (by rintro _ ⟨⟩)
  case lineStart l m =>
    obtain ⟨r, hr, -, hover, rfl⟩ := startLine_eq_ok hchange
    refine h.set l _ ?_
    rintro _ ⟨⟩ -
    rw [(r.started_region m).1, (r.started_region m).2.1]
    simpa [transferOverlaps, hactive] using hover
  case lineFreeze l => obtain ⟨r, -, -, rfl⟩ := freezeLine_eq_ok hchange; exact h.set l _ (by rintro _ ⟨⟩ ⟨⟩)
  case lineHalt l => obtain ⟨r, -, -, rfl⟩ := haltLine_eq_ok hchange; exact h.set l _ (by rintro _ ⟨⟩ ⟨⟩)
  case tapAttach => obtain ⟨-, -, rfl⟩ := attachTap_eq_ok hchange; exact h
  case tapDetach => obtain ⟨r, -, rfl⟩ := detachTap_eq_ok hchange; cases r.gliding <;> exact h
  case tapRetarget => obtain ⟨r, lr, -, -, -, rfl⟩ := retargetTap_eq_ok hchange; rw [retargetCount_eq]; exact h
  case tapGain => obtain ⟨r, -, rfl⟩ := gainTap_eq_ok hchange; exact h
  all_goals cases hchange

/-- `TransferClearOfRunningLines` as a statement about the Transfer Unit and the Line Table. -/
def ActiveClear (active : Option Transfer) (lines : Vector (Option LineRec) 32) : Prop :=
  ∀ x ∈ active, ClearOfRunning lines x.address x.count

/-- The active transfer keeps its range as it moves. -/
theorem ActiveClear.moved {active : Option Transfer} {lines : Vector (Option LineRec) 32}
    (h : ActiveClear active lines) {x y : Transfer} (hactive : active = some x) (haddress : y.address = x.address)
    (hcount : y.count = x.count) : ActiveClear (some y) lines := by
  rintro _ ⟨⟩
  rw [haddress, hcount]
  exact h x hactive

theorem act_keeps_activeClear {c : Instr} {s t : State} (hact : Act c s t) (h : ActiveClear s.tx.active s.lines) :
    ActiveClear t.tx.active t.lines := by
  cases hact with
  | loopAdvances hwaits hitem hmode => exact fun x hx => (h x hx).set _ _ (by rintro _ ⟨⟩ ⟨⟩)
  | lineWriteGranted => exact fun x hx => (h x hx).set_written _
  | headApplies r _ _ _ _ hchange =>
    intro x (hx : s.tx.active = some x)
    have hchanged := clearOfRunning_tableChange hx (h x hx) hchange
    exact hchanged
  | headMoves k _ _ _ _ hrefusal =>
    rintro _ ⟨⟩ l r hr hm
    rw [rangesOverlap_comm]
    exact (handoverRefusal_eq_none hrefusal).2 l r hr hm
  | storeDone =>
    intro x hx
    obtain ⟨y, hy, rfl⟩ := Option.map_eq_some_iff.1 hx
    exact h y hy
  | readBurstDone _ _ hactive => exact h.moved hactive rfl rfl
  | transferCut _ hactive => exact h.moved hactive rfl rfl
  | pushes _ hactive => exact h.moved hactive rfl rfl
  | takes hactive => exact h.moved hactive rfl rfl
  | transferLeaves => rintro _ ⟨⟩
  | softResets => rintro _ ⟨⟩
  | deviceResets => rintro _ ⟨⟩
  | _ => exact h

/-- Settles O52: a line starts and a transfer is handed over only clear of the other, and neither moves its
range afterwards. -/
theorem stepKeepsTransferOffRunningLines : Obligations.StepKeepsTransferOffRunningLines := by
  unfold Obligations.StepKeepsTransferOffRunningLines
  simp only [transferClear_iff]
  exact fun s t h hstep => step_induction (P := fun s => ActiveClear s.tx.active s.lines) (fun _ _ hs => hs)
    (fun _ _ _ => act_keeps_activeClear) hstep h

/-! ### A service owns the tables (R48, R50, R61) -/

/-- The tables and the glide count. -/
def State.tables (s : State) :
    Vector (Option LineRec) 32 × Vector (Option TapRec) 128 × Nat := (s.lines, s.taps, s.glideCount)

theorem inService_eq_true (s : State) :
    inService s = true ↔ s.eng.state = .servicing ∨ s.eng.state = .stopping := by
  simp [inService]

/-- Out of WAITING and STOPPED no service begins and no engine leaves them. -/
theorem not_stopped_of_inService {s : State} (h : inService s = true) :
    s.eng.state ≠ .stopped ∧ s.eng.state ≠ .waiting := by
  rcases (inService_eq_true s).1 h with h | h <;> simp [h]

/-- In a service a change other than the publish and the resets leaves the engine in the service. -/
theorem act_keeps_inService {c : Instr} {s t : State} (hact : Act c s t) (hsoft : c ≠ .softReset)
    (hdevice : c ≠ .deviceReset) (hpublish : c ≠ .publish) (h : inService s = true) : inService t = true := by
  obtain ⟨hstopped, hwaiting⟩ := not_stopped_of_inService h
  cases hact with
  | begins => rfl
  | goes hstate => exact absurd hstate hstopped
  | stops hstate => exact absurd hstate hwaiting
  | stopping => rfl
  | publishes => exact absurd rfl hpublish
  | softResets => exact absurd rfl hsoft
  | deviceResets => exact absurd rfl hdevice
  | _ => exact h

/-- In a service only the stage turns, the grants of line writes and the resets change the tables. -/
theorem act_keeps_tables {c : Instr} {s t : State} (hact : Act c s t) (hsoft : c ≠ .softReset)
    (hdevice : c ≠ .deviceReset) (hglide : c ≠ .glideStage) (hline : c ≠ .lineWriteStage)
    (hgrant : c ≠ .lineWriteGrant) (h : inService s = true) : t.tables = s.tables := by
  obtain ⟨hstopped, hwaiting⟩ := not_stopped_of_inService h
  cases hact with
  | glides => exact absurd rfl hglide
  | loopAdvances => exact absurd rfl hline
  | lineWriteGranted => exact absurd rfl hgrant
  | headApplies r _ _ hstate => exact absurd hstate (not_or_intro hstopped hwaiting)
  | softResets => exact absurd rfl hsoft
  | deviceResets => exact absurd rfl hdevice
  | _ => rfl

/-- Settles O60: each row of the command keeps the engine in the service, and the tables, unless it is one of
those named. -/
theorem serviceOwnsTheTables : Obligations.ServiceOwnsTheTables := by
  unfold Obligations.ServiceOwnsTheTables
  intro c s t hservice hexec hsoft hdevice hctrl
  obtain rfl := effect_of_exec hexec
  have hreset : ¬ isReset c := by
    rintro (h | h | ⟨v, hv, h⟩)
    · exact hdevice h
    · exact hsoft h
    · exact Bool.false_ne_true ((hctrl v h).symm.trans hv)
  have hsoft' : ∀ d ∈ rows c, d ≠ .softReset := fun d hd h => hreset (isReset_of_mem_rows (.inl (h ▸ hd)))
  have hdevice' : ∀ d ∈ rows c, d ≠ .deviceReset := fun d hd h => hreset (isReset_of_mem_rows (.inr (h ▸ hd)))
  have own : ∀ e : Instr, isFieldRow e = false → c ≠ e → ∀ d ∈ rows c, d ≠ e := fun e he hne d hd h =>
    hne (eq_of_mem_rows (h ▸ hd) he).symm
  refine ⟨fun hpublish => ?_, fun hglide hline hgrant => ?_⟩
  · exact effect_induction (P := fun a => inService a = true) (fun d hd a b hact =>
      act_keeps_inService hact (hsoft' d hd) (hdevice' d hd) (own .publish rfl hpublish d hd)) hservice
  · have htables : (effect c s).tables = s.tables := by
      by_cases hpublish : c = .publish
      · subst hpublish
        exact act_keeps_tables (.publish s) hsoft hdevice hglide hline hgrant hservice
      · refine (effect_induction (P := fun a => inService a = true ∧ a.tables = s.tables)
          (fun d hd a b hact h => ⟨?_, ?_⟩) ⟨hservice, rfl⟩).2
        · exact act_keeps_inService hact (hsoft' d hd) (hdevice' d hd) (own .publish rfl hpublish d hd) h.1
        · rw [act_keeps_tables hact (hsoft' d hd) (hdevice' d hd) (own .glideStage rfl hglide d hd)
            (own .lineWriteStage rfl hline d hd) (own .lineWriteGrant rfl hgrant d hd) h.1, h.2]
    exact ⟨congrArg Prod.fst htables, congrArg (·.2.1) htables, congrArg (·.2.2) htables⟩

end Sys2Proof.Machine
end

section
/-! Invariants of the Request Unit, the ring, refresh and RST#, the count of requests, and the operation in
flight (R43, R72, R79 to R81, R86, R90, R121, R125 to R129, R145). -/

namespace Sys2Proof.Machine

/-! ### The count of requests (R86) -/

theorem markOldest_length (tag : Tag) (queue : List Entry) : (markOldest tag queue).length = queue.length := by
  have := congrArg List.length (markOldest_map_request tag queue)
  simpa using this

theorem outstanding_eq (s : State) :
    outstanding s = s.req.queue.length + s.tx.active.toList.length + s.ring.length := by
  unfold outstanding
  cases s.tx.active <;> rfl

/-- A head that leaves with its record moves from the queue to the ring. -/
theorem completeHead_outstanding {s : State} {e : Entry} {rest : List Entry} (r : Record)
    (hqueue : s.req.queue = e :: rest) : outstanding (completeHead r s) = outstanding s := by
  simp only [outstanding_eq, completeHead_req, completeHead_ring, completeHead_tx, hqueue, List.tail_cons,
    List.length_cons, List.length_append, List.length_nil]
  omega

/-- Neither a submission nor a pop nor a reset: the balance stays. -/
theorem act_keeps_outstanding {c : Instr} {s t : State} (hact : Act c s t) (hsoft : c ≠ .softReset)
    (hdevice : c ≠ .deviceReset) (hsubmit : ∀ v, c ≠ .submit v) (hpop : ∀ v, c ≠ .pop v) :
    outstanding t = outstanding s := by
  cases hact with
  | headLeaves r _ hqueue => exact completeHead_outstanding r hqueue
  | @headApplies _ s _ _ _ lines taps count ev r _ hqueue =>
    exact completeHead_outstanding (s := s.withTables lines taps count ev) r hqueue
  | headMoves k _ hqueue hactive => simp [outstanding, hqueue, hactive, acceptTransfer]
  | transferLeaves r hactive => simp [outstanding, hactive]; omega
  | marksEntry tag => simp [outstanding, markOldest_length]
  | storeDone => simp [outstanding]
  | readBurstDone _ _ hactive => simp [outstanding, hactive]
  | transferCut _ hactive => simp [outstanding, hactive]
  | pushes _ hactive => simp [outstanding, hactive]
  | takes hactive => simp [outstanding, hactive, takeCell]
  | submits => exact absurd rfl (hsubmit _)
  | pops => exact absurd rfl (hpop _)
  | softResets => exact absurd rfl hsoft
  | deviceResets => exact absurd rfl hdevice
  | _ => rfl

/-- A submission adds to the balance the entry it adds to the queue, none or one (R69, R71). -/
theorem submitStaged_outstanding (s : State) :
    outstanding (submitStaged s) + s.req.queue.length = outstanding s + (submitStaged s).req.queue.length ∧
      s.req.queue.length ≤ (submitStaged s).req.queue.length ∧
      (submitStaged s).req.queue.length ≤ s.req.queue.length + 1 := by
  have refused : ∀ e, outstanding (hostError e s) = outstanding s := fun _ => rfl
  unfold submitStaged
  split
  · simp [refused]
  · split
    · simp [refused]
    · simp [outstanding_eq]; omega

/-- A pop takes from the balance the record it removes, none or one (R94). -/
theorem popRing_outstanding (s : State) :
    outstanding (popRing s) + s.ring.length = outstanding s + (popRing s).ring.length ∧
      (popRing s).ring.length ≤ s.ring.length ∧ s.ring.length ≤ (popRing s).ring.length + 1 := by
  have refused : ∀ e, outstanding (hostError e s) = outstanding s := fun _ => rfl
  unfold popRing
  cases hring : s.ring with
  | nil => simp [refused, hring]
  | cons r rest => simp [outstanding, hring]; omega

/-- Settles O58: a row other than SUBMIT and POP keeps the balance, and those two are single rows. -/
theorem requestsAreConserved : Obligations.RequestsAreConserved := by
  unfold Obligations.RequestsAreConserved
  intro c s t hexec hreset
  obtain rfl := effect_of_exec hexec
  refine ⟨fun hsubmit hpop => ?other, fun hsubmit => ?submission, fun hpop => ?pop⟩
  case other =>
    refine effect_induction (P := fun a => outstanding a = outstanding s) (fun d hd a b hact h => ?_) rfl
    rw [← h]
    exact act_keeps_outstanding hact (fun e => hreset (isReset_of_mem_rows (.inl (e ▸ hd))))
      (fun e => hreset (isReset_of_mem_rows (.inr (e ▸ hd))))
      (fun v e => hsubmit (isSubmission_of_mem_rows (e ▸ hd))) (fun v e => hpop (isPop_of_mem_rows (e ▸ hd)))
  case submission =>
    obtain ⟨v, hrows⟩ := rows_of_isSubmission hsubmit
    have heffect : effect c s = whenReleased s submitStaged := by rw [effect_eq_runRows, hrows]; rfl
    rw [heffect]
    exact whenReleased_keeps (P := fun t => outstanding t + s.req.queue.length = outstanding s + t.req.queue.length ∧
      s.req.queue.length ≤ t.req.queue.length ∧ t.req.queue.length ≤ s.req.queue.length + 1) (by simp)
      fun _ => submitStaged_outstanding s
  case pop =>
    obtain ⟨v, hrows⟩ := rows_of_isPop hpop
    have heffect : effect c s = whenReleased s popRing := by rw [effect_eq_runRows, hrows]; rfl
    rw [heffect]
    exact whenReleased_keeps (P := fun t => outstanding t + s.ring.length = outstanding s + t.ring.length ∧
      t.ring.length ≤ s.ring.length ∧ s.ring.length ≤ t.ring.length + 1) (by simp) fun _ => popRing_outstanding s

/-! ### The operation in flight (R121) -/

/-- The operation `op` is in flight, owned or disowned. -/
def OpInFlight (op : DramOp) (s : State) : Prop := ∃ owned, s.port.op = some ⟨op, owned⟩

/-- No change but the operation's own completion or a device reset takes it from the port. -/
theorem act_keeps_opInFlight {c : Instr} {op : DramOp} {s t : State} (hact : Act c s t)
    (hown : c ≠ completionOf op) (hdevice : c ≠ .deviceReset) (h : OpInFlight op s) : OpInFlight op t := by
  obtain ⟨owned, hop⟩ := h
  have busy : ∀ {P : Prop}, s.port.op = none → P := fun hfree => by rw [hop] at hfree; cases hfree
  have own : ∀ {P : Prop} {d : DramOp} {o : Bool}, s.port.op = some ⟨d, o⟩ → c = completionOf d → P :=
    fun hd hc => by rw [hop] at hd; cases hd; exact absurd hc hown
  cases hact with
  | lineWriteGranted hfree => exact busy hfree
  | tapReadGranted hfree => exact busy hfree
  | writeBurstGranted hfree => exact busy hfree
  | readBurstGranted hfree => exact busy hfree
  | fillBurstGranted hfree => exact busy hfree
  | refreshGranted hfree => exact busy hfree
  | lineWriteDone hd => exact own hd rfl
  | lineWriteDisowned hd => exact own hd rfl
  | tapReadDone hd => exact own hd rfl
  | tapReadDisowned hd => exact own hd rfl
  | storeDone hrow hd => exact own hd hrow
  | storeDisowned hrow hd => exact own hd hrow
  | readBurstDone _ hd => exact own hd rfl
  | readBurstDiscarded hd => exact own hd rfl
  | refreshDone hd => exact own hd rfl
  | softResets => exact ⟨false, by simp [softReset, softPort, hop]⟩
  | deviceResets => exact absurd rfl hdevice
  | _ => exact ⟨owned, hop⟩

/-- Settles O59: completions are no fields of a whole-location write, so the command's own rows keep the
operation. -/
theorem grantedOperationIsNeverCut : Obligations.GrantedOperationIsNeverCut := by
  unfold Obligations.GrantedOperationIsNeverCut
  intro c s t o hop hexec hown hdevice
  obtain rfl := effect_of_exec hexec
  have hfield : isFieldRow (completionOf o.op) = false := by cases o.op <;> rfl
  exact effect_induction (P := OpInFlight o.op) (fun d hd a b hact => act_keeps_opInFlight hact
    (fun h => hown (eq_of_mem_rows (h ▸ hd) hfield).symm) (fun h => hdevice (eq_of_mem_rows (h ▸ hd) rfl).symm))
    ⟨o.owned, hop⟩

/-! ### The mark state of the head (R79 to R81) -/

/-- A MARK is at the head of the queue. -/
def markIsHead (queue : List Entry) : Bool := queue.head?.any fun e => decide (e.request = .mark)

theorem markOfHead_isSome (e : EngineState) (queue : List Entry) :
    (markOfHead e queue).isSome = markIsHead queue := by
  cases queue with
  | nil => rfl
  | cons h rest => by_cases hm : h.request = .mark <;> simp [markOfHead, markIsHead, hm]

theorem markOfHead_ne_armed (e : EngineState) (queue : List Entry) (n : FrameNo) :
    markOfHead e queue ≠ some (.armed n) := by
  cases queue with
  | nil => simp [markOfHead]
  | cons h rest => unfold markOfHead; split_ifs <;> simp

theorem markOfHead_unarmed {e : EngineState} {queue : List Entry} (h : markOfHead e queue = some .unarmed) :
    e ≠ .stopped := by
  rintro rfl
  cases queue with
  | nil => cases h
  | cons h' rest => by_cases hm : h'.request = .mark <;> simp [markOfHead, hm] at h

@[simp] theorem armMark_isSome (n : FrameNo) (m : Option MarkState) : (armMark n m).isSome = m.isSome := by
  unfold armMark; split <;> rfl

@[simp] theorem publishMark_isSome (n : FrameNo) (m : Option MarkState) : (publishMark n m).isSome = m.isSome := by
  unfold publishMark; split <;> rfl

@[simp] theorem stopMark_isSome (m : Option MarkState) : (stopMark m).isSome = m.isSome := by
  unfold stopMark; split <;> rfl

theorem stopMark_ne_unarmed (m : Option MarkState) : stopMark m ≠ some .unarmed := by
  unfold stopMark
  split
  · simp
  · next h => exact h

theorem stopMark_eq_armed {m : Option MarkState} {n : FrameNo} (h : stopMark m = some (.armed n)) :
    m = some (.armed n) := by
  unfold stopMark at h
  split at h
  · cases h
  · exact h

theorem armMark_ne_unarmed (n : FrameNo) (m : Option MarkState) : armMark n m ≠ some .unarmed := by
  unfold armMark
  split
  · simp
  · next h => exact h

theorem armMark_eq_armed {m : Option MarkState} {n k : FrameNo} (h : armMark n m = some (.armed k)) :
    k = n ∨ m = some (.armed k) := by
  unfold armMark at h
  split at h
  · cases h; exact .inl rfl
  · exact .inr h

/-- A publish leaves no MARK armed on its frame. -/
theorem publishMark_eq_armed {m : Option MarkState} {n k : FrameNo} (h : publishMark n m = some (.armed k)) :
    m = some (.armed k) ∧ k ≠ n := by
  unfold publishMark at h
  split at h
  · next j =>
    split_ifs at h with hj
    · cases h
    · cases h; exact ⟨rfl, hj⟩
  · next hnone => exact absurd h (hnone k)

/-- A fresh head meets the mark rules in every engine state. -/
theorem markSound_of_fresh_head {s : State} (h : s.req.mark = markOfHead s.eng.state s.req.queue) : MarkSound s := by
  refine ⟨?_, fun n hn => ?_, fun hu => ?_⟩
  · rw [h]; exact markOfHead_isSome _ _
  · exact absurd (h ▸ hn) (markOfHead_ne_armed _ _ n)
  · exact markOfHead_unarmed (h ▸ hu)

/-- Out of service no MARK is armed. -/
theorem MarkSound.not_armed {s : State} (h : MarkSound s) (hs : inService s = false) (n : FrameNo) :
    s.req.mark ≠ some (.armed n) := fun hn => by
  have := (h.2.1 n hn).1
  rw [hs] at this
  cases this

theorem act_keeps_markSound {c : Instr} {s t : State} (hact : Act c s t) (h : MarkSound s) : MarkSound t := by
  obtain ⟨hhead, harmed, hunarmed⟩ := h
  have idle : s.eng.state = .stopped ∨ s.eng.state = .waiting → ∀ n, s.req.mark ≠ some (.armed n) := fun hs =>
    MarkSound.not_armed ⟨hhead, harmed, hunarmed⟩ ((inService_eq_false s).2 hs)
  cases hact with
  | begins hstate =>
    refine ⟨(armMark_isSome _ _).trans hhead, fun n hn => ?_, fun hu => absurd hu (armMark_ne_unarmed _ _)⟩
    rcases armMark_eq_armed hn with rfl | hm
    · exact ⟨rfl, rfl⟩
    · exact absurd hm (idle (.inr hstate) n)
  | goes hstate => exact ⟨hhead, fun n hn => absurd hn (idle (.inl hstate) n), fun _ => by simp⟩
  | stops hstate =>
    refine ⟨(stopMark_isSome _).trans hhead, fun n hn => ?_, fun hu => absurd hu (stopMark_ne_unarmed _)⟩
    exact absurd (stopMark_eq_armed hn) (idle (.inr hstate) n)
  | stopping hstate => exact ⟨hhead, fun n hn => ⟨rfl, (harmed n hn).2⟩, fun _ => by simp⟩
  | publishes =>
    have noArmed : ∀ n, publishMark s.eng.fseq s.req.mark ≠ some (.armed n) := fun n hn =>
      (publishMark_eq_armed hn).2 (harmed n (publishMark_eq_armed hn).1).2
    by_cases hstop : s.eng.state = .stopping
    · simp only [publishService, if_pos hstop]
      refine ⟨?_, fun n hn => absurd (stopMark_eq_armed hn) (noArmed n), fun hu => absurd hu (stopMark_ne_unarmed _)⟩
      exact (stopMark_isSome _).trans ((publishMark_isSome _ _).trans hhead)
    · simp only [publishService, if_neg hstop]
      exact ⟨(publishMark_isSome _ _).trans hhead, fun n hn => absurd hn (noArmed n), fun _ => by simp⟩
  | headLeaves => exact markSound_of_fresh_head rfl
  | headApplies => exact markSound_of_fresh_head rfl
  | headMoves => exact markSound_of_fresh_head rfl
  | submits =>
    cases hqueue : s.req.queue with
    | nil => exact markSound_of_fresh_head (by simp [hqueue])
    | cons e rest =>
      refine ⟨?_, fun n hn => harmed n ?_, fun hu => hunarmed ?_⟩
      · simpa [hqueue] using hhead
      · simpa [hqueue] using hn
      · simpa [hqueue] using hu
  | marksEntry tag =>
    refine ⟨hhead.trans ?_, harmed, hunarmed⟩
    cases hqueue : s.req.queue with
    | nil => rfl
    | cons e rest => unfold markOldest; split <;> rfl
  | softResets => exact markSound_of_fresh_head rfl
  | deviceResets => exact markSound_of_fresh_head rfl
  | _ => exact ⟨hhead, harmed, hunarmed⟩

/-- Settles O56: the mark state changes with the head, and with the begin, the publish and the stops of the
engine. -/
theorem stepKeepsMarkState : Obligations.StepKeepsMarkState := by
  unfold Obligations.StepKeepsMarkState
  exact fun s t h hstep => step_induction (P := MarkSound) (fun _ _ hs => hs) (fun _ _ _ => act_keeps_markSound)
    hstep h

/-! ### Capacities, the pending tick, refresh, the held part and the DRAM -/

theorem act_keeps_withinCapacities {c : Instr} {s t : State} (hact : Act c s t) (h : WithinCapacities s) :
    WithinCapacities t := by
  obtain ⟨hqueue, hring, hdebt⟩ := h
  have htail : s.req.queue.tail.length ≤ 8 := by simp; omega
  cases hact with
  | headLeaves r _ _ hfree => exact ⟨htail, by simp; omega, hdebt⟩
  | headApplies r _ _ _ hfree => exact ⟨htail, by simp [State.withTables]; omega, hdebt⟩
  | headMoves => exact ⟨htail, hring, hdebt⟩
  | transferLeaves r _ _ hfree => exact ⟨hqueue, by simp; omega, hdebt⟩
  | submits hfree => exact ⟨by simp; omega, hring, hdebt⟩
  | marksEntry tag => exact ⟨(markOldest_length tag _).trans_le hqueue, hring, hdebt⟩
  | pops hrecord => exact ⟨hqueue, by rw [hrecord] at hring; simp at hring ⊢; omega, hdebt⟩
  | refreshDone => exact ⟨hqueue, hring, by simp only; omega⟩
  | refreshExpired => exact ⟨hqueue, hring, by simp only [refreshExpires_port]; split <;> omega⟩
  | enablesRefresh => exact ⟨hqueue, hring, by simp⟩
  | disablesRefresh => exact ⟨hqueue, hring, by simp⟩
  | softResets => exact ⟨by simp [softReset, RequestUnit.reset], by simp [softReset], hdebt⟩
  | deviceResets => exact ⟨Nat.zero_le _, Nat.zero_le _, Nat.zero_le _⟩
  | _ => exact ⟨hqueue, hring, hdebt⟩

theorem act_keeps_stoppedHoldsNoTick {c : Instr} {s t : State} (hact : Act c s t) (h : StoppedHoldsNoTick s) :
    StoppedHoldsNoTick t := by
  cases hact with
  | begins => exact fun _ => rfl
  | pends hstate => exact fun hs => by rw [hstate] at hs; cases hs
  | goes => exact fun _ => rfl
  | stops => exact fun _ => rfl
  | stopping => rintro ⟨⟩
  | publishes =>
    intro hs
    simp only [publishService] at hs ⊢
    split_ifs at hs ⊢ with hstop
    rfl
  | softResets => exact fun _ => rfl
  | deviceResets => exact fun _ => rfl
  | _ => exact h

theorem act_keeps_refreshSound {c : Instr} {s t : State} (hact : Act c s t) (h : RefreshSound s) :
    RefreshSound t := by
  obtain ⟨htimer, hrefint, hdebt⟩ := h
  have running : s.port.refreshTimer.isSome = true → ∀ {P : Prop}, s.port.refreshOn = false → P := fun ht P hoff => by
    rw [htimer, hoff] at ht
    cases ht
  cases hact with
  | refreshDone => exact ⟨htimer, hrefint, fun hoff => by simp [hdebt hoff]⟩
  | refreshExpired hrun => exact ⟨htimer ▸ hrun.symm, hrefint, fun hoff => running hrun hoff⟩
  | refreshCounted n hrun => exact ⟨htimer ▸ hrun.symm, hrefint, hdebt⟩
  | enablesRefresh => exact ⟨rfl, hrefint, fun _ => rfl⟩
  | disablesRefresh => exact ⟨rfl, hrefint, fun _ => rfl⟩
  | setsRefint n hn => exact ⟨htimer, hn, hdebt⟩
  | deviceResets => exact ⟨rfl, (by decide : (1 : BitVec 8) ≠ 0), fun _ => rfl⟩
  | _ => exact ⟨htimer, hrefint, hdebt⟩

theorem act_keeps_dramWf {c : Instr} {s t : State} (hact : Act c s t) (h : s.dram.wf = true) :
    t.dram.wf = true := by
  cases hact with
  | lineWriteGranted => exact Dram.wf_write _ _ _ h
  | storeDone => exact Dram.wf_writeMany _ _ _ h
  | storeDisowned => exact Dram.wf_writeMany _ _ _ h
  | _ => first | exact h | rfl

/-- While RST# is asserted a read returns 0 (R145). -/
theorem effect_read_of_held {s : State} (hheld : s.held = true) {c : Instr}
    (hc : c = .dataLo ∨ ∃ off, c = .lowHalfRead off) :
    effect c s = { s with host := { s.host with dataOut := 0 } } := by
  rcases hc with rfl | ⟨off, rfl⟩ <;> exact if_pos hheld

/-- While RST# is asserted all but reads, resets and the loss of the contents is ignored (R145, log 14). -/
theorem effect_of_held {s : State} (hheld : s.held = true) {c : Instr} (hdata : c ≠ .dataLo)
    (hread : ∀ off, c ≠ .lowHalfRead off) (hdevice : c ≠ .deviceReset) (hrelease : c ≠ .rstRelease)
    (hlost : c ≠ .dramContentsLost) : effect c s = s := by
  cases c
  case dataLo => exact absurd rfl hdata
  case lowHalfRead off => exact absurd rfl (hread off)
  case deviceReset => exact absurd rfl hdevice
  case rstRelease => exact absurd rfl hrelease
  case dramContentsLost => exact absurd rfl hlost
  all_goals exact effect_of_exec (exec_of_held rfl hheld)

/-- Settles O4: RST# guards every row but the two reads, the resets and the loss of the contents. -/
theorem heldPartIgnoresCommands : Obligations.HeldPartIgnoresCommands := by
  unfold Obligations.HeldPartIgnoresCommands
  intro c s hheld
  rw [exec_eq_effect]
  exact ⟨fun hc => congrArg _ (effect_read_of_held hheld hc), fun hdata hread hdevice hrelease hlost =>
    congrArg _ (effect_of_held hheld hdata hread hdevice hrelease hlost)⟩

/-- Only a device reset asserts RST# (R145). -/
theorem act_keeps_released {c : Instr} {s t : State} (hact : Act c s t) (hdevice : c ≠ .deviceReset)
    (h : s.held = false) : t.held = false := by
  cases hact with
  | deviceResets => exact absurd rfl hdevice
  | releases => rfl
  | _ => exact h

theorem effect_released {c : Instr} {s : State} (hdevice : c ≠ .deviceReset) (h : s.held = false) :
    (effect c s).held = false :=
  effect_induction (P := fun a => a.held = false) (fun _ hd _ _ hact =>
    act_keeps_released hact fun h => hdevice (eq_of_mem_rows (h ▸ hd) rfl).symm) h

/-- What is held at its reset values stays so until its release, and a device reset brings them (R145). -/
theorem effect_keeps_heldAtReset {c : Instr} {s : State} (h : HeldAtReset s) : HeldAtReset (effect c s) := by
  by_cases hdevice : c = .deviceReset
  · subst hdevice
    exact fun _ => ⟨rfl, rfl, rfl, rfl, rfl, rfl, rfl, rfl, rfl, rfl⟩
  cases hheld : s.held with
  | false =>
    intro ht
    rw [effect_released hdevice hheld] at ht
    cases ht
  | true =>
    by_cases hread : c = .dataLo ∨ ∃ off, c = .lowHalfRead off
    · rw [effect_read_of_held hheld hread]
      obtain ⟨hlines, htaps, hcount, heng, hreq, hring, htx, hport, hhost, hev⟩ := h hheld
      exact fun _ => ⟨hlines, htaps, hcount, heng, hreq, hring, htx, hport, by rw [hhost]; rfl, hev⟩
    by_cases hrelease : c = .rstRelease
    · subst hrelease
      rintro ⟨⟩
    by_cases hlost : c = .dramContentsLost
    · subst hlost
      exact h
    simp only [not_or, not_exists] at hread
    rw [effect_of_held hheld hread.1 hread.2 hdevice hrelease hlost]
    exact h

theorem step_keeps_heldAtReset {s t : State} (hstep : step s = .next t) (h : HeldAtReset s) : HeldAtReset t := by
  unfold step at hstep
  split at hstep
  · obtain rfl : tclkPeriod s = t := Host.Outcome.next.inj hstep
    refine whenReleased_keeps h fun hheld => ?_
    have hcount : (countStarvationTimer (countRefreshTimer s)).held = false :=
      act_keeps_released (.countStarvationTimer .starvationTimerExpiry _) (by decide)
        (act_keeps_released (.countRefreshTimer .refreshTimerExpiry s) (by decide) hheld)
    intro ht
    rw [hcount] at ht
    cases ht
  · rw [← effect_of_exec hstep]
    exact effect_keeps_heldAtReset h

/-- Settles O57: each part is an invariant of every change, the held part of every command. -/
theorem stepKeepsControlInvariants : Obligations.StepKeepsControlInvariants := by
  unfold Obligations.StepKeepsControlInvariants
  intro s t hstep
  refine ⟨fun h => ?_, fun h => ?_, fun h => ?_, step_keeps_heldAtReset hstep, fun h => ?_⟩
  · exact step_induction (P := WithinCapacities) (fun _ _ hs => hs) (fun _ _ _ => act_keeps_withinCapacities) hstep h
  · exact step_induction (P := StoppedHoldsNoTick) (fun _ _ hs => hs) (fun _ _ _ => act_keeps_stoppedHoldsNoTick)
      hstep h
  · exact step_induction (P := RefreshSound) (fun _ _ hs => hs) (fun _ _ _ => act_keeps_refreshSound) hstep h
  · exact step_induction (P := fun s => s.dram.wf = true) (fun _ _ hs => hs) (fun _ _ _ => act_keeps_dramWf) hstep h

/-! ### The engine's accesses and accumulators (R35, R36, R52) -/

/-- Every accumulator is bounded by 2^38 for each of `n` taps. -/
def AccWithin (n : Nat) (acc : Vector Int 16) : Prop := ∀ b : Fin 16, (acc[b]).natAbs ≤ n * 2 ^ 38

theorem AccWithin.mono {n m : Nat} {acc : Vector Int 16} (h : AccWithin n acc) (hnm : n ≤ m) : AccWithin m acc :=
  fun b => (h b).trans (Nat.mul_le_mul_right _ hnm)

theorem accWithin_zero (n : Nat) : AccWithin n (Vector.replicate 16 0) := by
  intro b
  simp

/-- A product of a gain and a sample is at most 2^38 (R35). -/
theorem tapProduct_natAbs_le (gain : BitVec 16) (v : Sample) : (tapProduct gain v).natAbs ≤ 2 ^ 38 := by
  have hgain : gain.toInt.natAbs ≤ 2 ^ 15 := by
    have := BitVec.toInt_lt (x := gain)
    have := BitVec.le_toInt (x := gain)
    omega
  have hv : v.toInt.natAbs ≤ 2 ^ 23 := by
    have := BitVec.toInt_lt (x := v)
    have := BitVec.le_toInt (x := v)
    omega
  calc (tapProduct gain v).natAbs = gain.toInt.natAbs * v.toInt.natAbs := Int.natAbs_mul _ _
    _ ≤ 2 ^ 15 * 2 ^ 23 := Nat.mul_le_mul hgain hv
    _ = 2 ^ 38 := by norm_num

/-- A tap's read raises the bound by one tap (R36). -/
theorem accAfter_within {s : State} {n : Nat} (t : Fin 128) (v : Sample) (h : AccWithin n s.eng.acc) :
    AccWithin (n + 1) (accAfter s t v) := by
  unfold accAfter
  split
  · exact h.mono (Nat.le_succ n)
  · next r hr =>
    intro b
    rw [getElem_set_fin]
    split
    · have := tapProduct_natAbs_le r.gain v
      have := h r.bus
      have := Int.natAbs_add_le s.eng.acc[r.bus] (tapProduct r.gain v)
      omega
    · exact (h b).trans (Nat.mul_le_mul_right _ (Nat.le_succ n))

/-- `EngineSound` without the bound on the accumulators: what the engine waits on fits its place (R52). -/
structure AccessInOrder (s : State) : Prop where
  rests : inService s = false → s.eng.stage = .rest ∧ engineWaits s.port = false
  moves : inService s = true → s.eng.stage ≠ .rest
  single : engineOpInFlight s.port = true → s.port.op.any PortOp.owned = true → s.port.engineClaim = none
  claim : ∀ c ∈ s.port.engineClaim, claimFits s.eng.stage c = true
  flight : ∀ o ∈ s.port.op, opFits s.eng.stage o = true

theorem engineSound_iff (s : State) : EngineSound s ↔
    AccessInOrder s ∧ tapsPassed s.eng.stage ≤ 128 ∧ AccWithin (tapsPassed s.eng.stage) s.eng.acc := by
  constructor
  · rintro ⟨h1, h2, h3, h4, h5, h6, h7⟩
    exact ⟨⟨h1, h2, h3, h4, h5⟩, h6, h7⟩
  · rintro ⟨⟨h1, h2, h3, h4, h5⟩, h6, h7⟩
    exact ⟨h1, h2, h3, h4, h5, h6, h7⟩

/-- The engine waits on nothing: no claim stands, and no engine operation in flight is its own. -/
theorem engineWaits_eq_false (p : MemoryPort) : engineWaits p = false ↔
    p.engineClaim = none ∧ (engineOpInFlight p = true → p.op.any PortOp.owned = false) := by
  unfold engineWaits
  cases p.engineClaim <;> cases engineOpInFlight p <;> simp

/-- An operation in flight that is not the engine's own fits every place. -/
theorem opFits_of_foreign {p : MemoryPort} (h : engineOpInFlight p = true → p.op.any PortOp.owned = false)
    (st : Stage) : ∀ o ∈ p.op, opFits st o = true := by
  rintro ⟨op, owned⟩ ho
  simp only [Option.mem_def] at ho
  simp only [engineOpInFlight, ho, Option.any_some] at h
  cases owned <;> cases op <;> first | rfl | simp at h

theorem tapsPassed_eq_zero {st : Stage} (h : ∀ n, st ≠ .tapReads n) : tapsPassed st = 0 := by
  cases st <;> first | rfl | exact absurd rfl (h _)

theorem tapsPassed_le {st : Stage} {t : Nat} (h : ∀ n, st = .tapReads n → n ≤ t) : tapsPassed st ≤ t := by
  cases st <;> first | exact Nat.zero_le t | exact h _ rfl

theorem inService_publishService (s : State) : inService (publishService s) = false := by
  unfold inService publishService
  split <;> rfl

/-- While the engine waits on nothing it may go to any place of the service. -/
theorem AccessInOrder.at_place {s : State} (hwaits : engineWaits s.port = false) (st : Stage) (t : State)
    (hport : t.port = s.port) (hstage : t.eng.stage = st) (hrest : inService t = false → st = .rest)
    (hmoves : inService t = true → st ≠ .rest) : AccessInOrder t := by
  obtain ⟨hclaim, hflight⟩ := (engineWaits_eq_false _).1 hwaits
  refine ⟨fun h => ⟨hstage ▸ hrest h, hport ▸ hwaits⟩, fun h => hstage ▸ hmoves h, ?_, ?_, ?_⟩
  · exact fun _ _ => hport ▸ hclaim
  · rw [hport, hclaim]; rintro _ ⟨⟩
  · rw [hport]; exact opFits_of_foreign hflight _

/-- Whether an access fits a place turns on the taps passed alone. -/
theorem claimFits_congr {st st' : Stage} (h : tapsPassed st' = tapsPassed st) (c : EngineClaim) :
    claimFits st' c = claimFits st c := by
  unfold claimFits accessAtStage
  rw [h]

theorem opFits_congr {st st' : Stage} (h : tapsPassed st' = tapsPassed st) (o : PortOp) :
    opFits st' o = opFits st o := by
  unfold opFits accessAtStage
  rw [h]

/-- The service may go on to a place with as many taps passed. -/
theorem AccessInOrder.same_passed {s : State} (h : AccessInOrder s) (t : State) (hport : t.port = s.port)
    (hservice : inService t = true) (hrest : t.eng.stage ≠ .rest)
    (hpassed : tapsPassed t.eng.stage = tapsPassed s.eng.stage) : AccessInOrder t := by
  refine ⟨fun hs => ?_, fun _ => hrest, hport ▸ h.single, fun c hc => ?_, fun o ho => ?_⟩
  · rw [hservice] at hs; cases hs
  · rw [claimFits_congr hpassed]; exact h.claim c (hport ▸ hc)
  · rw [opFits_congr hpassed]; exact h.flight o (hport ▸ ho)

/-- A new claim that fits the place may stand while no engine operation is in flight. -/
theorem AccessInOrder.claimed {s : State} (h : AccessInOrder s) (hservice : inService s = true)
    (hop : engineOpInFlight s.port = false) (c : EngineClaim) (hc : claimFits s.eng.stage c = true) :
    AccessInOrder { s with port := { s.port with engineClaim := some c } } := by
  refine ⟨fun hs => absurd (hservice.symm.trans hs) (by decide), h.moves, fun ho => ?_, ?_, h.flight⟩
  · exact absurd (hop.symm.trans ho) (by decide)
  · rintro _ ⟨⟩
    exact hc

/-- A service is in progress while the engine waits on an access. -/
theorem AccessInOrder.service {s : State} (h : AccessInOrder s) (hwaits : engineWaits s.port = true) :
    inService s = true := by
  by_contra hs
  have := (h.rests (by simpa using hs)).2
  rw [hwaits] at this
  cases this

/-- The engine's claim may become its operation in flight. -/
theorem AccessInOrder.granted {s : State} (h : AccessInOrder s) {c : EngineClaim} (hc : s.port.engineClaim = some c)
    (op : DramOp) (hop : opFits s.eng.stage ⟨op, true⟩ = claimFits s.eng.stage c) (t : State)
    (hport : t.port = { s.port with engineClaim := none, op := some ⟨op, true⟩ }) (heng : t.eng = s.eng) :
    AccessInOrder t := by
  have hwaits : engineWaits s.port = true := by simp [engineWaits, hc]
  have hservice : inService t = true := by
    unfold inService
    rw [heng]
    exact h.service hwaits
  refine ⟨fun hs => absurd (hservice.symm.trans hs) (by decide), fun _ => heng ▸ h.moves (h.service hwaits), ?_, ?_, ?_⟩
  · rw [hport]; exact fun _ _ => rfl
  · rw [hport]; rintro _ ⟨⟩
  · rw [hport, heng]
    rintro _ ⟨⟩
    exact hop.trans (h.claim c hc)

/-- The engine's operation may end, the service going on to another place. -/
theorem AccessInOrder.completed {s : State} (h : AccessInOrder s) (hop : engineOpInFlight s.port = true)
    (hown : s.port.op.any PortOp.owned = true) (t : State) (hport : t.port = { s.port with op := none })
    (hstate : t.eng.state = s.eng.state) (hrest : t.eng.stage ≠ .rest) : AccessInOrder t := by
  have hclaim := h.single hop hown
  have hservice : inService t = true := by
    unfold inService
    rw [hstate]
    exact h.service (by simp [engineWaits, hop, hown])
  refine ⟨fun hs => absurd (hservice.symm.trans hs) (by decide), fun _ => hrest, ?_, ?_, ?_⟩
  · rw [hport]; exact fun _ _ => hclaim
  · rw [hport, hclaim]; rintro _ ⟨⟩
  · rw [hport]; rintro _ ⟨⟩

/-- The operations of the other claimants come and go without the engine, and its claim may be promoted. -/
theorem AccessInOrder.foreign {s : State} (h : AccessInOrder s) (t : State) (heng : t.eng = s.eng)
    (hop : engineOpInFlight t.port = false)
    (hclaim : ∀ c ∈ t.port.engineClaim, ∃ d ∈ s.port.engineClaim, d.access = c.access) : AccessInOrder t := by
  have hservice : inService t = inService s := by unfold inService; rw [heng]
  refine ⟨fun hs => ?_, fun hs => heng ▸ h.moves (hservice ▸ hs), ?_, fun c hc => ?_, ?_⟩
  · obtain ⟨hstage, hwaits⟩ := h.rests (hservice ▸ hs)
    refine ⟨heng ▸ hstage, (engineWaits_eq_false _).2 ⟨?_, fun ho => ?_⟩⟩
    · refine Option.eq_none_iff_forall_not_mem.2 fun c hc => ?_
      obtain ⟨d, hd, -⟩ := hclaim c hc
      rw [((engineWaits_eq_false _).1 hwaits).1] at hd
      cases hd
    · rw [hop] at ho; cases ho
  · intro ho; rw [hop] at ho; cases ho
  · obtain ⟨d, hd, hcd⟩ := hclaim c hc
    have := h.claim d hd
    rw [heng]
    unfold claimFits at this ⊢
    rwa [← hcd]
  · refine opFits_of_foreign (fun ho => ?_) _
    rw [hop] at ho
    cases ho

theorem act_keeps_accessInOrder {c : Instr} {s t : State} (hact : Act c s t) (h : AccessInOrder s) :
    AccessInOrder t := by
  have same : ∀ c ∈ s.port.engineClaim, ∃ d ∈ s.port.engineClaim, d.access = c.access := fun c hc => ⟨c, hc, rfl⟩
  cases hact with
  | begins hstate =>
    have hwaits := (h.rests ((inService_eq_false s).2 (.inr hstate))).2
    exact .at_place hwaits (.glides 0) _ rfl rfl (by rintro ⟨⟩) (fun _ => by simp)
  | goes hstate =>
    have hrests := h.rests ((inService_eq_false s).2 (.inl hstate))
    exact ⟨fun _ => hrests, by rintro ⟨⟩, h.single, h.claim, h.flight⟩
  | stops hstate =>
    have hrests := h.rests ((inService_eq_false s).2 (.inr hstate))
    exact ⟨fun _ => hrests, by rintro ⟨⟩, h.single, h.claim, h.flight⟩
  | stopping hstate =>
    have hmoves := h.moves ((inService_eq_true s).2 (.inl hstate))
    exact ⟨by rintro ⟨⟩, fun _ => hmoves, h.single, h.claim, h.flight⟩
  | glides ev hitem =>
    obtain ⟨hservice, n, hstage, -⟩ := currentItem_glide hitem
    exact h.same_passed _ rfl hservice (by simp) (by rw [hstage]; rfl)
  | lineClaims hwaits hitem hop =>
    obtain ⟨hservice, -, -, -, hplace⟩ := currentItem_line hitem
    exact h.claimed hservice hop _ (by simp [claimFits, accessAtStage, tapsPassed_eq_zero hplace])
  | loopAdvances hwaits hitem =>
    obtain ⟨hservice, -⟩ := currentItem_line hitem
    exact .at_place hwaits (.lineWrites _) _ rfl rfl (fun hs => absurd (hservice.symm.trans hs) (by decide))
      (fun _ => by simp)
  | tapClaims cell hwaits hitem hop =>
    obtain ⟨hservice, -, -, hplace⟩ := currentItem_tap hitem
    exact h.claimed hservice hop _ (by simp [claimFits, accessAtStage, tapsPassed_le hplace])
  | tapPasses hwaits hitem =>
    obtain ⟨hservice, -⟩ := currentItem_tap hitem
    exact .at_place hwaits (.tapReads _) _ rfl rfl (fun hs => absurd (hservice.symm.trans hs) (by decide))
      (fun _ => by simp)
  | publishes hwaits =>
    refine .at_place hwaits .rest _ rfl rfl (fun _ => rfl) fun hs => ?_
    exact absurd (hs.symm.trans (inService_publishService s)) (by decide)
  | lineWriteGranted _ hclaim => exact h.granted hclaim _ rfl _ rfl rfl
  | tapReadGranted _ hclaim => exact h.granted hclaim _ rfl _ rfl rfl
  | lineWriteDone hop => exact h.completed (by simp [engineOpInFlight, hop]) (by simp [hop]) _ rfl rfl (by simp)
  | tapReadDone hop => exact h.completed (by simp [engineOpInFlight, hop]) (by simp [hop]) _ rfl rfl (by simp)
  | lineWriteDisowned => exact h.foreign _ rfl rfl same
  | tapReadDisowned => exact h.foreign _ rfl rfl same
  | writeBurstGranted => exact h.foreign _ rfl rfl same
  | readBurstGranted => exact h.foreign _ rfl rfl same
  | fillBurstGranted => exact h.foreign _ rfl rfl same
  | storeDone => exact h.foreign _ rfl rfl same
  | storeDisowned => exact h.foreign _ rfl rfl same
  | readBurstDone => exact h.foreign _ rfl rfl same
  | readBurstDiscarded => exact h.foreign _ rfl rfl same
  | refreshGranted => exact h.foreign _ rfl rfl same
  | refreshDone =>
    refine h.foreign _ rfl rfl fun c hc => ?_
    obtain ⟨d, hd, rfl⟩ := Option.map_eq_some_iff.1 hc
    exact ⟨d, hd, rfl⟩
  | softResets =>
    have hdisowned : (softReset s).port.op.any PortOp.owned = false := by
      cases hop : s.port.op <;> simp [softReset, softPort, hop]
    refine ⟨fun _ => ⟨rfl, (engineWaits_eq_false _).2 ⟨rfl, fun _ => hdisowned⟩⟩, by rintro ⟨⟩, fun _ _ => rfl,
      by rintro _ ⟨⟩, opFits_of_foreign (fun _ => hdisowned) _⟩
  | deviceResets => exact ⟨fun _ => ⟨rfl, rfl⟩, by rintro ⟨⟩, fun _ _ => rfl, by rintro _ ⟨⟩, by rintro _ ⟨⟩⟩
  | _ => exact ⟨h.rests, h.moves, h.single, h.claim, h.flight⟩

/-- Every accumulator stays within 2^38 for each tap passed, and no more taps pass than there are (R36). -/
def AccSound (s : State) : Prop :=
  tapsPassed s.eng.stage ≤ 128 ∧ AccWithin (tapsPassed s.eng.stage) s.eng.acc

/-- At a place before the tap reads the accumulators hold 0. -/
theorem AccSound.rewound {s : State} (h : AccSound s) (hpassed : tapsPassed s.eng.stage = 0) (t : State)
    (hacc : t.eng.acc = s.eng.acc) (hstage : tapsPassed t.eng.stage = 0) : AccSound t := by
  refine ⟨by omega, ?_⟩
  rw [hstage, hacc, ← hpassed]
  exact h.2

theorem act_keeps_accSound {c : Instr} {s t : State} (hact : Act c s t) (haccess : AccessInOrder s)
    (h : AccSound s) : AccSound t := by
  cases hact with
  | begins hstate =>
    have hstage := (haccess.rests ((inService_eq_false s).2 (.inr hstate))).1
    exact h.rewound (by rw [hstage]; rfl) _ rfl rfl
  | glides ev hitem =>
    obtain ⟨-, n, hstage, -⟩ := currentItem_glide hitem
    exact h.rewound (by rw [hstage]; rfl) _ rfl rfl
  | loopAdvances _ hitem => exact h.rewound (tapsPassed_eq_zero (currentItem_line hitem).2.2.2.2) _ rfl rfl
  | @tapPasses s t r _ hitem =>
    have hpassed := tapsPassed_le (currentItem_tap hitem).2.2.2
    exact ⟨t.isLt, h.2.mono (hpassed.trans (Nat.le_succ _))⟩
  | publishes => exact ⟨Nat.zero_le _, accWithin_zero 0⟩
  | lineWriteDone hop =>
    have hfits := haccess.flight _ hop
    exact h.rewound (by simpa [opFits, accessAtStage] using hfits) _ rfl rfl
  | @tapReadDone s t cell hop =>
    have hfits := haccess.flight _ hop
    have hpassed : tapsPassed s.eng.stage ≤ t.val := by simpa [opFits, accessAtStage] using hfits
    exact ⟨t.isLt, accAfter_within t _ (h.2.mono hpassed)⟩
  | softResets => exact ⟨Nat.zero_le _, accWithin_zero 0⟩
  | deviceResets => exact ⟨Nat.zero_le _, accWithin_zero 0⟩
  | _ => exact h

/-- Settles O53: each access is claimed, granted and completed at its own place, where a tap read adds at most
2^38 to one accumulator; 128 taps keep it below 2^45. -/
theorem stepKeepsAccumulatorsIn48Bits : Obligations.StepKeepsAccumulatorsIn48Bits := by
  unfold Obligations.StepKeepsAccumulatorsIn48Bits
  simp only [engineSound_iff]
  refine ⟨fun s t h hstep => ?_, fun s h b => ?_⟩
  · exact step_induction (P := fun s => AccessInOrder s ∧ AccSound s)
      (fun _ _ hs => ⟨⟨hs.1.rests, hs.1.moves, hs.1.single, hs.1.claim, hs.1.flight⟩, hs.2⟩)
      (fun _ _ _ hact hs => ⟨act_keeps_accessInOrder hact hs.1, act_keeps_accSound hact hs.1 hs.2⟩) hstep h
  · obtain ⟨-, hpassed, hacc⟩ := h
    have := (hacc.mono hpassed) b
    omega

end Sys2Proof.Machine
end

section
/-! Invariants of the Transfer Unit: claims and the starvation timer are prompt, and every cell of a transfer is
accounted for (R103 to R117). -/

namespace Sys2Proof.Machine

/-! ### Prompt claims and the starvation timer (R108, R111, R114, R115) -/

theorem nextBurst_of_not_moving {tx : TransferUnit} (h : ∀ x ∈ tx.active, x.final ≠ none) : nextBurst tx = none := by
  cases hb : nextBurst tx with
  | none => rfl
  | some c =>
    obtain ⟨x, hx, hfinal, -⟩ := nextBurst_spec hb
    exact absurd hfinal (h x hx)

theorem timerRuns_of_not_moving {tx : TransferUnit} (p : MemoryPort) (h : ∀ x ∈ tx.active, x.final ≠ none) :
    timerRuns tx p = false := by
  cases hx : tx.active with
  | none => simp [timerRuns, isWriting, isReading, hx]
  | some x =>
    obtain ⟨f, hf⟩ := Option.ne_none_iff_exists'.1 (h x hx)
    simp [timerRuns, isWriting, isReading, hx, hf]

/-- Where no transfer moves, the unit is prompt with its timer stopped. -/
theorem transferPrompt_of_not_moving {s : State} (h : ∀ x ∈ s.tx.active, x.final ≠ none)
    (htimer : s.tx.timer = none) : TransferPrompt s :=
  ⟨fun _ _ => nextBurst_of_not_moving h, by rw [htimer, timerRuns_of_not_moving s.port h]; rfl⟩

/-- An event that neither moves the transfer nor begins or ends a burst leaves the unit prompt. -/
theorem TransferPrompt.same {s : State} (h : TransferPrompt s) (t : State) (htx : t.tx = s.tx)
    (hclaim : t.port.txClaim = s.port.txClaim) (htimeout : t.port.txtimeout = s.port.txtimeout)
    (hs : burstInFlight s.port = false) (ht : burstInFlight t.port = false) : TransferPrompt t := by
  refine ⟨fun hc _ => ?_, ?_⟩
  · rw [htx]; exact h.1 (hclaim ▸ hc) hs
  · rw [htx, h.2]
    simp only [timerRuns, hclaim, htimeout, hs, ht]

/-- A burst that is granted holds the timer still, as its claim did. -/
theorem TransferPrompt.granted {s : State} (h : TransferPrompt s) {c : BurstClaim} (hclaim : s.port.txClaim = some c)
    (t : State) (htimer : t.tx.timer = s.tx.timer) (ht : burstInFlight t.port = true) : TransferPrompt t := by
  refine ⟨fun _ hb => absurd (ht.symm.trans hb) (by decide), ?_⟩
  rw [htimer, h.2]
  simp [timerRuns, hclaim, ht]

theorem transferPrompt_settleTransfer (b : State) : TransferPrompt (settleTransfer b) :=
  ⟨fun hc hb => examineClaim_prompt b.tx b.port hc hb, timerKept_isSome b.tx (examineClaim b.tx b.port)⟩

theorem transferPrompt_settleRestarted (b : State) : TransferPrompt (settleRestarted b) :=
  ⟨fun hc hb => examineClaim_prompt b.tx b.port hc hb, timerRestarted_isSome b.tx (examineClaim b.tx b.port)⟩

theorem act_keeps_transferPrompt {c : Instr} {s t : State} (hact : Act c s t) (h : TransferPrompt s) :
    TransferPrompt t := by
  cases hact with
  | lineWriteGranted hop => exact h.same _ rfl rfl rfl (by simp [burstInFlight, hop]) rfl
  | tapReadGranted hop => exact h.same _ rfl rfl rfl (by simp [burstInFlight, hop]) rfl
  | refreshGranted hop => exact h.same _ rfl rfl rfl (by simp [burstInFlight, hop]) rfl
  | lineWriteDone hop => exact h.same _ rfl rfl rfl (by simp [burstInFlight, hop]) rfl
  | lineWriteDisowned hop => exact h.same _ rfl rfl rfl (by simp [burstInFlight, hop]) rfl
  | tapReadDone hop => exact h.same _ rfl rfl rfl (by simp [burstInFlight, hop]) rfl
  | tapReadDisowned hop => exact h.same _ rfl rfl rfl (by simp [burstInFlight, hop]) rfl
  | refreshDone hop => exact h.same _ rfl rfl rfl (by simp [burstInFlight, hop]) rfl
  | writeBurstGranted _ hclaim => exact h.granted hclaim _ rfl rfl
  | readBurstGranted _ hclaim => exact h.granted hclaim _ rfl rfl
  | fillBurstGranted _ hclaim => exact h.granted hclaim _ rfl rfl
  | storeDone => exact transferPrompt_settleTransfer _
  | storeDisowned => exact transferPrompt_settleTransfer _
  | readBurstDone => exact transferPrompt_settleTransfer _
  | readBurstDiscarded => exact transferPrompt_settleTransfer _
  | headMoves => exact transferPrompt_settleTransfer _
  | pushes => exact transferPrompt_settleRestarted _
  | takes => exact transferPrompt_settleRestarted _
  | starvationCounted n hrun => exact ⟨h.1, hrun.symm.trans h.2⟩
  | transferCut => exact transferPrompt_of_not_moving (by rintro _ ⟨⟩; simp) rfl
  | transferLeaves r hactive hfinal =>
    have hstopped : s.tx.timer = none := by
      have hnot : ∀ x ∈ s.tx.active, x.final ≠ none := by
        intro x hx
        obtain rfl := Option.some.inj (hactive.symm.trans hx)
        simp [hfinal]
      simpa [timerRuns_of_not_moving _ hnot] using h.2
    exact transferPrompt_of_not_moving (by rintro _ ⟨⟩) hstopped
  | setsTimeout v => exact ⟨h.1, timerRestarted_isSome _ _⟩
  | softResets => exact transferPrompt_of_not_moving (by rintro _ ⟨⟩) rfl
  | deviceResets => exact transferPrompt_of_not_moving (by rintro _ ⟨⟩) rfl
  | _ => exact h

/-- Settles O55: every event that can make a claim condition or the timer's conditions true ends by settling
the claim and the timer. -/
theorem stepKeepsClaimsPrompt : Obligations.StepKeepsClaimsPrompt := by
  unfold Obligations.StepKeepsClaimsPrompt
  exact fun s t h hstep => step_induction (P := TransferPrompt) (fun _ _ hs => hs)
    (fun _ _ _ => act_keeps_transferPrompt) hstep h

/-! ### The books of a transfer (R104, R107, R109, R112, R117) -/

/-- The cells of the unit's own burst, claimed or in flight. -/
def ownCells (claim : Option BurstClaim) (flight : Nat) : Nat := (claim.map BurstClaim.size).getD flight

theorem burstCells_eq (p : MemoryPort) : burstCells p = ownCells p.txClaim (flightCells p) := by
  unfold burstCells flightCells ownCells
  cases p.txClaim with
  | some c => rfl
  | none =>
    rcases p.op with _ | ⟨op, owned⟩
    · rfl
    · cases owned <;> cases op <;> rfl

/-- The books of a moving transfer, by its kind. -/
def Transfer.MovingBooks (t : Transfer) (fifo flight : Nat) (claim : Option BurstClaim) : Prop :=
  match t.kind with
  | .write => t.accepted = t.written + flight + fifo ∧ t.accepted ≤ t.count ∧ t.written < t.count ∧
      ∀ c ∈ claim, c.size ≤ fifo
  | .read => t.fetched = t.delivered + fifo ∧ t.fetched + ownCells claim flight ≤ t.count ∧
      t.delivered < t.count ∧ fifo + ownCells claim flight ≤ 64
  | .fill _ => t.written + ownCells claim flight ≤ t.count ∧ t.written < t.count ∧ fifo = 0

/-- The cells done of a transfer that has ended stay within count, with those still in flight. -/
def Transfer.EndedBooks (t : Transfer) (flight : Nat) : Prop :=
  match t.kind with
  | .read => t.delivered ≤ t.count
  | .write => t.written + flight ≤ t.count
  | .fill _ => t.written + flight ≤ t.count

/-- The books of the active transfer, moving or ended. -/
structure Transfer.Books (t : Transfer) (fifo flight : Nat) (claim : Option BurstClaim) : Prop where
  moving : t.final = none → t.MovingBooks fifo flight claim
  ended : t.final ≠ none → fifo = 0 ∧ claim = none ∧ t.EndedBooks flight

theorem Transfer.books_iff (t : Transfer) (fifo : Nat) (p : MemoryPort) :
    (if t.final.isNone then t.accounted fifo p else t.ended fifo p) = true ↔
      t.Books fifo (flightCells p) p.txClaim := by
  have hiff : t.Books fifo (flightCells p) p.txClaim ↔
      (t.final = none → t.MovingBooks fifo (flightCells p) p.txClaim) ∧
      (t.final ≠ none → fifo = 0 ∧ p.txClaim = none ∧ t.EndedBooks (flightCells p)) :=
    ⟨fun h => ⟨h.moving, h.ended⟩, fun h => ⟨h.1, h.2⟩⟩
  rw [hiff]
  cases hf : t.final <;> cases hk : t.kind <;>
    simp [Transfer.accounted, Transfer.ended, Transfer.MovingBooks, Transfer.EndedBooks, burstCells_eq, hk, and_assoc,
      Option.all_eq_true]

/-- `TransferSound` apart from the queue: the FIFO, the claim, the burst in flight and the active transfer. -/
structure UnitSound (tx : TransferUnit) (p : MemoryPort) : Prop where
  capacity : tx.fifo.length ≤ 64
  idle : tx.active = none → tx.fifo = [] ∧ p.txClaim = none ∧ ownBurstInFlight p = false
  apart : p.txClaim.isSome = true → burstInFlight p = false
  nonempty : ∀ c ∈ p.txClaim, 1 ≤ c.size
  claimKind : ∀ t ∈ tx.active, ∀ c ∈ p.txClaim, c.kind = t.kind
  flightKind : ∀ t ∈ tx.active, ∀ o ∈ p.op, flightOfKind t.kind o = true
  books : ∀ t ∈ tx.active, t.Books tx.fifo.length (flightCells p) p.txClaim

theorem transferSound_iff (s : State) : TransferSound s ↔
    UnitSound s.tx s.port ∧ ∀ e ∈ s.req.queue, countChecked e.request = true := by
  unfold TransferSound
  simp only [Transfer.books_iff]
  constructor
  · rintro ⟨h1, h2, h3, h4, h5, h6⟩
    exact ⟨⟨h1, h2, h3, h4, fun t ht => (h5 t ht).1, fun t ht => (h5 t ht).2.1, fun t ht => (h5 t ht).2.2⟩, h6⟩
  · rintro ⟨⟨h1, h2, h3, h4, h5, h6, h7⟩, h8⟩
    exact ⟨h1, h2, h3, h4, fun t ht => ⟨h5 t ht, h6 t ht, h7 t ht⟩, h8⟩

/-! ### The port beside the books -/

theorem flightCells_of_noBurst {p : MemoryPort} (h : burstInFlight p = false) : flightCells p = 0 := by
  unfold burstInFlight at h
  unfold flightCells
  rcases hop : p.op with _ | ⟨op, owned⟩
  · rfl
  · rw [hop] at h
    cases owned <;> cases op <;> first | rfl | cases h

theorem ownBurstInFlight_of_noBurst {p : MemoryPort} (h : burstInFlight p = false) : ownBurstInFlight p = false := by
  simp [ownBurstInFlight, h]

theorem flightCells_of_disowned {p : MemoryPort} (h : ownBurstInFlight p = false) : flightCells p = 0 := by
  unfold ownBurstInFlight burstInFlight at h
  unfold flightCells
  rcases hop : p.op with _ | ⟨op, owned⟩
  · rfl
  · rw [hop] at h
    cases owned <;> cases op <;> first | rfl | cases h

theorem flightOfKind_of_disowned {p : MemoryPort} (h : ownBurstInFlight p = false) (k : TransferKind) :
    ∀ o ∈ p.op, flightOfKind k o = true := by
  rintro ⟨op, owned⟩ ho
  unfold ownBurstInFlight burstInFlight at h
  rw [show p.op = some ⟨op, owned⟩ from ho] at h
  cases owned <;> cases op <;> first | rfl | cases h

theorem ownCells_none (flight : Nat) : ownCells none flight = flight := rfl

theorem ownCells_some (c : BurstClaim) (flight : Nat) : ownCells (some c) flight = c.size := rfl

namespace UnitSound

variable {tx : TransferUnit} {p : MemoryPort}

/-- A burst of the unit's own in flight stands alone, and belongs to an active transfer. -/
theorem claim_none (h : UnitSound tx p) (hburst : burstInFlight p = true) : p.txClaim = none := by
  by_contra hc
  have := h.apart (Option.isSome_iff_ne_none.2 hc)
  rw [hburst] at this
  cases this

theorem active_of_own (h : UnitSound tx p) (hown : ownBurstInFlight p = true) : ∃ t, tx.active = some t := by
  refine Option.ne_none_iff_exists'.1 fun hnone => ?_
  rw [(h.idle hnone).2.2] at hown
  cases hown

theorem active_of_claim (h : UnitSound tx p) {c : BurstClaim} (hc : p.txClaim = some c) :
    ∃ t, tx.active = some t ∧ t.final = none := by
  obtain ⟨t, ht⟩ := Option.ne_none_iff_exists'.1 fun hnone => by rw [(h.idle hnone).2.1] at hc; cases hc
  refine ⟨t, ht, ?_⟩
  by_contra hf
  rw [((h.books t ht).ended hf).2.1] at hc
  cases hc

/-- The port may change where no burst of the unit's own begins or ends and the claim stays. -/
theorem same (h : UnitSound tx p) (q : MemoryPort) (hclaim : q.txClaim = p.txClaim)
    (hp : ownBurstInFlight p = false) (hq : ownBurstInFlight q = false)
    (hapart : q.txClaim.isSome = true → burstInFlight q = false) : UnitSound tx q := by
  refine ⟨h.capacity, fun hn => ?_, hapart, hclaim ▸ h.nonempty, hclaim ▸ h.claimKind, fun t _ => ?_, fun t ht => ?_⟩
  · exact ⟨(h.idle hn).1, hclaim ▸ (h.idle hn).2.1, hq⟩
  · exact flightOfKind_of_disowned hq t.kind
  · have := h.books t ht
    rw [flightCells_of_disowned hp] at this
    rw [flightCells_of_disowned hq, hclaim]
    exact this

/-- Examining the claim condition keeps the books: the burst claimed fits what is left of the transfer and of
the FIFO (R108, R111, R114). -/
theorem examined (h : UnitSound tx p) : UnitSound tx (examineClaim tx p) := by
  by_cases hnew : p.txClaim = none ∧ burstInFlight p = false
  case neg =>
    have hsame : (examineClaim tx p).txClaim = p.txClaim := by
      unfold examineClaim
      cases hc : p.txClaim <;> cases hb : burstInFlight p <;> simp_all
    exact ⟨h.capacity, fun hn => hsame ▸ h.idle hn, hsame ▸ h.apart, hsame ▸ h.nonempty, hsame ▸ h.claimKind,
      h.flightKind, hsame ▸ h.books⟩
  obtain ⟨hnone, hburst⟩ := hnew
  have hclaim : (examineClaim tx p).txClaim = nextBurst tx := by simp [examineClaim, hnone, hburst]
  cases hnext : nextBurst tx with
  | none =>
    have hsame : (examineClaim tx p).txClaim = p.txClaim := by rw [hclaim, hnext, hnone]
    exact ⟨h.capacity, fun hn => hsame ▸ h.idle hn, hsame ▸ h.apart, hsame ▸ h.nonempty, hsame ▸ h.claimKind,
      h.flightKind, hsame ▸ h.books⟩
  | some c =>
    obtain ⟨t, ht, hfinal, hkind, -, hwrite, hread, hfill⟩ := nextBurst_spec hnext
    have hbooks := (h.books t ht).moving hfinal
    have hcapacity := h.capacity
    rw [flightCells_of_noBurst hburst, hnone] at hbooks
    have only : ∀ {P : Transfer → Prop}, P t → ∀ x ∈ tx.active, P x := fun hP x hx => by
      rw [← Option.some.inj (ht.symm.trans hx)]; exact hP
    refine ⟨h.capacity, fun hn => (by rw [ht] at hn; cases hn), fun _ => hburst, ?_, only ?_, h.flightKind,
      only ⟨fun _ => ?_, fun hf => absurd hfinal hf⟩⟩
    · rw [hclaim, hnext]
      rintro _ ⟨⟩
      cases hk : t.kind with
      | write => exact (hwrite hk).2.1
      | read => exact (hread hk).2.1
      | fill v => exact (hfill v hk).2.1
    · rw [hclaim, hnext]
      rintro _ ⟨⟩
      exact hkind
    · rw [hclaim, hnext]
      change t.MovingBooks tx.fifo.length (flightCells p) (some c)
      rw [flightCells_of_noBurst hburst]
      unfold Transfer.MovingBooks at hbooks ⊢
      cases hk : t.kind with
      | write =>
        simp only [hk] at hbooks ⊢
        refine ⟨hbooks.1, hbooks.2.1, hbooks.2.2.1, ?_⟩
        rintro _ ⟨⟩
        exact (hwrite hk).2.2
      | read =>
        have := hread hk
        simp only [hk, ownCells_none, ownCells_some] at hbooks ⊢
        omega
      | fill v =>
        have := hfill v hk
        simp only [hk, ownCells_none, ownCells_some] at hbooks ⊢
        omega

/-- The timer has no part in the books. -/
theorem timed (h : UnitSound tx p) (timer : Option Nat) : UnitSound { tx with timer := timer } p :=
  ⟨h.capacity, h.idle, h.apart, h.nonempty, h.claimKind, h.flightKind, h.books⟩

theorem settled {b : State} (h : UnitSound b.tx b.port) :
    UnitSound (settleTransfer b).tx (settleTransfer b).port := h.examined.timed _

theorem settledRestarted {b : State} (h : UnitSound b.tx b.port) :
    UnitSound (settleRestarted b).tx (settleRestarted b).port := h.examined.timed _

/-- The active transfer may change with the FIFO and the port if its books are kept. -/
theorem moved {t : Transfer} (q : MemoryPort) (fifo : List Sample) (timer : Option Nat) (hcapacity : fifo.length ≤ 64)
    (hapart : q.txClaim.isSome = true → burstInFlight q = false) (hnonempty : ∀ c ∈ q.txClaim, 1 ≤ c.size)
    (hclaim : ∀ c ∈ q.txClaim, c.kind = t.kind) (hflight : ∀ o ∈ q.op, flightOfKind t.kind o = true)
    (hbooks : t.Books fifo.length (flightCells q) q.txClaim) : UnitSound ⟨some t, fifo, timer⟩ q := by
  refine ⟨hcapacity, (by rintro ⟨⟩), hapart, hnonempty, ?_, ?_, ?_⟩ <;> rintro _ ⟨⟩ <;> assumption

/-- A unit in IDLE or FINISHING holds nothing. -/
theorem emptied (q : MemoryPort) (timer : Option Nat) (hclaim : q.txClaim = none)
    (hown : ownBurstInFlight q = false) : UnitSound ⟨none, [], timer⟩ q := by
  refine ⟨by simp, fun _ => ⟨rfl, hclaim, hown⟩, ?_, ?_, ?_, ?_, ?_⟩
  · rw [hclaim]; rintro ⟨⟩
  · rw [hclaim]; rintro _ ⟨⟩
  all_goals rintro _ ⟨⟩

end UnitSound

/-! ### What each event does to the books -/

section Events

variable {t : Transfer} {fifo flight : Nat} {claim : Option BurstClaim}

/-- A burst of the unit's own brings its cells to the DRAM, and the last of them end the transfer (R109, R114). -/
theorem Transfer.Books.stored {n : Nat} (h : t.Books fifo n none) (hkind : t.kind ≠ .read) :
    (t.burstWritten n).Books fifo 0 none := by
  have hmoving := h.moving
  have hended := h.ended
  unfold Transfer.MovingBooks at hmoving
  unfold Transfer.EndedBooks at hended
  by_cases hfinal : t.final = none
  · have hm := hmoving hfinal
    by_cases hlast : t.written + n = t.count
    · have hf : (t.burstWritten n).final = some .ok := by simp [Transfer.burstWritten, hfinal, hlast]
      refine ⟨fun hn => (by rw [hf] at hn; cases hn), fun _ => ⟨?_, rfl, ?_⟩⟩
      · cases hk : t.kind <;> simp only [hk] at hm
        case write => omega
        case read => exact absurd hk hkind
        case fill => exact hm.2.2
      · unfold Transfer.EndedBooks Transfer.burstWritten
        cases hk : t.kind <;> simp only
        case read => exact absurd hk hkind
        all_goals omega
    · have hf : (t.burstWritten n).final = none := by simp [Transfer.burstWritten, hfinal, hlast]
      refine ⟨fun _ => ?_, fun hn => absurd hf hn⟩
      unfold Transfer.MovingBooks Transfer.burstWritten
      cases hk : t.kind <;> simp only [hk, ownCells_none] at hm ⊢
      case write => exact ⟨by omega, by omega, by omega, by rintro _ ⟨⟩⟩
      case read => exact absurd hk hkind
      case fill => omega
  · have hf : (t.burstWritten n).final = t.final := by simp [Transfer.burstWritten, hfinal]
    obtain ⟨hfifo, -, he⟩ := hended hfinal
    refine ⟨fun hn => absurd (hf.symm.trans hn) hfinal, fun _ => ⟨hfifo, rfl, ?_⟩⟩
    unfold Transfer.EndedBooks Transfer.burstWritten
    cases hk : t.kind <;> simp only [hk] at he ⊢
    case read => exact absurd hk hkind
    all_goals omega

/-- The cells of a read burst come into the FIFO (R112). -/
theorem Transfer.Books.fetched {n : Nat} (h : t.Books fifo n none) (hfinal : t.final = none) (hkind : t.kind = .read) :
    ({ t with fetched := t.fetched + n } : Transfer).Books (fifo + n) 0 none ∧ fifo + n ≤ 64 := by
  have hm := h.moving hfinal
  simp only [Transfer.MovingBooks, hkind, ownCells_none] at hm
  refine ⟨⟨fun _ => ?_, fun hf => absurd hfinal hf⟩, by omega⟩
  simp only [Transfer.MovingBooks, hkind, ownCells_none]
  omega

/-- An accepted push (R106). -/
theorem Transfer.Books.pushed (h : t.Books fifo flight claim) (hfinal : t.final = none) (hkind : t.kind = .write)
    (haccepted : t.accepted < t.count) :
    ({ t with accepted := t.accepted + 1 } : Transfer).Books (fifo + 1) flight claim := by
  have hm := h.moving hfinal
  simp only [Transfer.MovingBooks, hkind] at hm
  refine ⟨fun _ => ?_, fun hf => absurd hfinal hf⟩
  simp only [Transfer.MovingBooks, hkind]
  exact ⟨by omega, by omega, hm.2.2.1, fun c hc => (hm.2.2.2 c hc).trans (Nat.le_succ _)⟩

/-- A pop that takes a cell; the last one leaves the FIFO empty and no burst claimed (R107, R113). -/
theorem Transfer.Books.popped (h : t.Books (fifo + 1) flight claim) (hfinal : t.final = none)
    (hkind : t.kind = .read) (hnonempty : ∀ c ∈ claim, 1 ≤ c.size) : t.cellDelivered.Books fifo flight claim := by
  have hm := h.moving hfinal
  simp only [Transfer.MovingBooks, hkind] at hm
  by_cases hlast : t.delivered + 1 = t.count
  · have hf : t.cellDelivered.final = some .ok := by simp [Transfer.cellDelivered, hlast]
    have hclaim : claim = none := by
      cases claim with
      | none => rfl
      | some c =>
        have := hnonempty c rfl
        rw [ownCells_some] at hm
        omega
    refine ⟨fun hn => (by rw [hf] at hn; cases hn), fun _ => ⟨by omega, hclaim, ?_⟩⟩
    simp only [Transfer.EndedBooks, Transfer.cellDelivered, hkind]
    omega
  · have hf : t.cellDelivered.final = none := by simp [Transfer.cellDelivered, hlast]
    refine ⟨fun _ => ?_, fun hn => absurd hf hn⟩
    simp only [Transfer.MovingBooks, Transfer.cellDelivered, hkind]
    omega

/-- A transfer cut short keeps within count what it has done and what is in flight (R96, R116). -/
theorem Transfer.Books.cut (h : t.Books fifo flight claim) (hfinal : t.final = none) (f : Final)
    (hapart : claim.isSome = true → flight = 0) :
    ({ t with final := some f } : Transfer).Books 0 flight none := by
  have hm := h.moving hfinal
  refine ⟨(by rintro ⟨⟩), fun _ => ⟨rfl, rfl, ?_⟩⟩
  unfold Transfer.MovingBooks at hm
  unfold Transfer.EndedBooks
  cases hk : t.kind <;> simp only [hk] at hm ⊢
  case write => omega
  case read => omega
  case fill =>
    cases claim with
    | none => exact hm.1
    | some c => rw [hapart rfl]; omega

/-- A claim that is granted as a burst of its cells; a write's are taken out of the FIFO (R109). -/
theorem Transfer.Books.granted {c : BurstClaim} (h : t.Books fifo 0 (some c)) (hkind : c.kind = t.kind) :
    t.Books (if c.kind = .write then fifo - c.size else fifo) c.size none := by
  by_cases hfinal : t.final = none
  · have hm := h.moving hfinal
    refine ⟨fun _ => ?_, fun hf => absurd hfinal hf⟩
    unfold Transfer.MovingBooks at hm ⊢
    rw [hkind]
    cases hk : t.kind <;> simp only [hk, ownCells_some, ownCells_none] at hm ⊢
    case write =>
      have := hm.2.2.2 c rfl
      exact ⟨by simp; omega, hm.2.1, hm.2.2.1, by rintro _ ⟨⟩⟩
    all_goals simpa using hm
  · exact absurd (h.ended hfinal).2.1 (by simp)

end Events

/-- What a burst of stored cells says of the transfer that owns it. -/
theorem stored_flight {p : MemoryPort} {op : DramOp} {address : Nat} {cells : List Sample}
    (hop : p.op = some ⟨op, true⟩) (hcells : storedCells op = some (address, cells)) :
    burstInFlight p = true ∧ ownBurstInFlight p = true ∧ flightCells p = cells.length ∧
      ∀ k, flightOfKind k ⟨op, true⟩ = true → k ≠ .read := by
  cases op <;> simp only [storedCells] at hcells <;> cases hcells <;>
    simp [burstInFlight, ownBurstInFlight, flightCells, flightOfKind, hop]

/-- Of a disowned burst of stored cells the unit holds nothing. -/
theorem stored_disowned {p : MemoryPort} {op : DramOp} {address : Nat} {cells : List Sample}
    (hop : p.op = some ⟨op, false⟩) (hcells : storedCells op = some (address, cells)) :
    burstInFlight p = true ∧ ownBurstInFlight p = false := by
  cases op <;> simp only [storedCells] at hcells <;> cases hcells <;> simp [burstInFlight, ownBurstInFlight, hop]

namespace UnitSound

variable {tx : TransferUnit} {p : MemoryPort}

/-- Another claimant takes or frees the port. -/
theorem foreign (h : UnitSound tx p) (q : MemoryPort) (hclaim : q.txClaim = p.txClaim)
    (hp : burstInFlight p = false) (hq : burstInFlight q = false) : UnitSound tx q :=
  h.same q hclaim (ownBurstInFlight_of_noBurst hp) (ownBurstInFlight_of_noBurst hq) fun _ => hq

/-- A burst that a soft reset disowned ends. -/
theorem freed (h : UnitSound tx p) (hown : ownBurstInFlight p = false) : UnitSound tx { p with op := none } :=
  h.same _ rfl hown rfl fun _ => rfl

/-- A burst of a transfer that has ended ends uncounted (R96). -/
theorem freed_ended (h : UnitSound tx p) (hended : ∀ x ∈ tx.active, x.final ≠ none) :
    UnitSound tx { p with op := none } := by
  refine ⟨h.capacity, fun hn => ⟨(h.idle hn).1, (h.idle hn).2.1, rfl⟩, fun _ => rfl, h.nonempty, h.claimKind,
    fun _ _ => (by rintro _ ⟨⟩), fun x hx => ⟨fun hn => absurd hn (hended x hx), fun hf => ?_⟩⟩
  obtain ⟨hfifo, hclaim, hbooks⟩ := (h.books x hx).ended hf
  refine ⟨hfifo, hclaim, ?_⟩
  unfold Transfer.EndedBooks at hbooks ⊢
  cases hk : x.kind <;> simp only [hk] at hbooks ⊢
  case read => exact hbooks
  all_goals exact (Nat.le_add_right _ _).trans hbooks

/-- The unit's claim becomes its burst in flight. -/
theorem granted (h : UnitSound tx p) {c : BurstClaim} (op : DramOp) (fifo : List Sample) (hop : p.op = none)
    (hclaim : p.txClaim = some c) (hcells : flightCells { p with txClaim := none, op := some ⟨op, true⟩ } = c.size)
    (hkind : flightOfKind c.kind ⟨op, true⟩ = true)
    (hfifo : fifo.length = if c.kind = .write then tx.fifo.length - c.size else tx.fifo.length) :
    UnitSound { tx with fifo := fifo } { p with txClaim := none, op := some ⟨op, true⟩ } := by
  obtain ⟨x, hx, -⟩ := h.active_of_claim hclaim
  have hbooks := h.books x hx
  rw [flightCells_of_noBurst (by simp [burstInFlight, hop]), hclaim] at hbooks
  have hcapacity : fifo.length ≤ 64 := by
    have := h.capacity
    rw [hfifo]
    split <;> omega
  simp only [hx]
  refine moved _ fifo tx.timer hcapacity (by rintro ⟨⟩) (by rintro _ ⟨⟩) (by rintro _ ⟨⟩) ?_ ?_
  · rintro _ ⟨⟩
    exact h.claimKind x hx c hclaim ▸ hkind
  · rw [hfifo, hcells]
    exact hbooks.granted (h.claimKind x hx c hclaim)

end UnitSound

theorem act_keeps_unitSound {c : Instr} {s t : State} (hact : Act c s t) (h : UnitSound s.tx s.port)
    (hqueue : ∀ e ∈ s.req.queue, countChecked e.request = true) : UnitSound t.tx t.port := by
  cases hact with
  | lineWriteGranted hop => exact h.foreign _ rfl (by simp [burstInFlight, hop]) rfl
  | tapReadGranted hop => exact h.foreign _ rfl (by simp [burstInFlight, hop]) rfl
  | refreshGranted hop => exact h.foreign _ rfl (by simp [burstInFlight, hop]) rfl
  | lineWriteDone hop => exact h.foreign _ rfl (by simp [burstInFlight, hop]) rfl
  | lineWriteDisowned hop => exact h.foreign _ rfl (by simp [burstInFlight, hop]) rfl
  | tapReadDone hop => exact h.foreign _ rfl (by simp [burstInFlight, hop]) rfl
  | tapReadDisowned hop => exact h.foreign _ rfl (by simp [burstInFlight, hop]) rfl
  | refreshDone hop => exact h.foreign _ rfl (by simp [burstInFlight, hop]) rfl
  | @writeBurstGranted s address size hop hclaim =>
    obtain ⟨x, hx, hfinal⟩ := h.active_of_claim hclaim
    have hm := (h.books x hx).moving hfinal
    have hkind : x.kind = .write := (h.claimKind x hx _ hclaim).symm
    simp only [Transfer.MovingBooks, hkind, hclaim] at hm
    have hsize : size ≤ s.tx.fifo.length := hm.2.2.2 _ rfl
    exact h.granted (.writeBurst address (s.tx.fifo.take size)) _ hop hclaim (by simp [flightCells, hsize]) rfl
      (by simp)
  | readBurstGranted hop hclaim =>
    exact h.granted _ s.tx.fifo hop hclaim rfl (by simp [flightOfKind]) (by simp)
  | fillBurstGranted hop hclaim =>
    exact h.granted _ s.tx.fifo hop hclaim rfl (by simp [flightOfKind]) (by simp)
  | storeDone _ hop hcells =>
    obtain ⟨hburst, hown, hflight, hkinds⟩ := stored_flight hop hcells
    obtain ⟨x, hx⟩ := h.active_of_own hown
    have hclaim := h.claim_none hburst
    have hbooks := h.books x hx
    rw [hflight, hclaim] at hbooks
    refine UnitSound.settled ?_
    rw [raiseWritten_tx, raiseWritten_port, storeCells_tx, storeCells_port, freePort_tx, freePort_port, hx]
    refine UnitSound.moved _ _ _ h.capacity (fun _ => rfl) (by rw [hclaim]; rintro _ ⟨⟩) (by rw [hclaim]; rintro _ ⟨⟩)
      (by rintro _ ⟨⟩) ?_
    rw [hclaim]
    exact hbooks.stored (hkinds _ (h.flightKind x hx _ hop))
  | storeDisowned _ hop hcells => exact UnitSound.settled (h.freed (stored_disowned hop hcells).2)
  | @readBurstDone s address size x cells ev hop hactive hfinal hsize =>
    have hkind : x.kind = .read := by simpa [flightOfKind] using h.flightKind x hactive _ hop
    have hclaim := h.claim_none (by simp [burstInFlight, hop])
    have hbooks := h.books x hactive
    rw [show flightCells s.port = size by simp [flightCells, hop], hclaim] at hbooks
    obtain ⟨hfetched, hcapacity⟩ := hbooks.fetched hfinal hkind
    refine UnitSound.settled (UnitSound.moved _ _ _ (by simp [hsize, hcapacity]) (fun _ => rfl) ?_ ?_ ?_ ?_)
    · simp [hclaim]
    · simp [hclaim]
    · rintro _ ⟨⟩
    · rw [List.length_append, hsize]
      exact hclaim ▸ hfetched
  | @readBurstDiscarded s address size owned hop hwhy =>
    rcases hwhy with rfl | hended
    · exact UnitSound.settled (h.freed (by simp [ownBurstInFlight, hop]))
    · exact UnitSound.settled (h.freed_ended hended)
  | @transferCut _ s x f hactive hfinal =>
    refine UnitSound.moved _ [] none (by simp) (by rintro ⟨⟩) (by rintro _ ⟨⟩) (by rintro _ ⟨⟩)
      (h.flightKind x hactive) ((h.books x hactive).cut hfinal f fun hc => flightCells_of_noBurst (h.apart hc))
  | headMoves k _ hentry hactive hcount =>
    obtain ⟨hfifo, hclaim, hown⟩ := h.idle hactive
    have hchecked := hcount (hqueue _ (hentry ▸ List.mem_cons_self))
    refine UnitSound.settled (UnitSound.moved _ s.tx.fifo s.tx.timer h.capacity h.apart h.nonempty ?_
      (flightOfKind_of_disowned hown _) ⟨fun _ => ?_, fun hf => absurd rfl hf⟩)
    · rw [removeHead_port, hclaim]; rintro _ ⟨⟩
    · rw [removeHead_port, hclaim, hfifo, flightCells_of_disowned hown]
      cases k <;> simp [Transfer.MovingBooks, ownCells_none] <;> omega
  | transferLeaves r hactive hfinal _ hburst =>
    obtain ⟨hfifo, hclaim, -⟩ := (h.books _ hactive).ended (by simp [hfinal])
    have hempty : s.tx.fifo = [] := List.length_eq_zero_iff.1 hfifo
    have := UnitSound.emptied s.port s.tx.timer hclaim hburst
    rw [← hempty] at this
    exact this
  | @pushes _ s x v hactive hfinal hkind haccepted hfree =>
    refine UnitSound.settledRestarted (UnitSound.moved _ _ _ (by simp; omega) h.apart h.nonempty
      (h.claimKind x hactive) (h.flightKind x hactive) ?_)
    rw [List.length_append]
    exact (h.books x hactive).pushed hfinal hkind haccepted
  | @takes _ s x v rest hactive hfinal hkind hfifo =>
    have hbooks := h.books x hactive
    have hcapacity := h.capacity
    rw [hfifo, List.length_cons] at hbooks hcapacity
    exact UnitSound.settledRestarted (UnitSound.moved _ rest _ (by omega) h.apart h.nonempty
      (h.claimKind x hactive) (h.flightKind x hactive) (hbooks.popped hfinal hkind h.nonempty))
  | softResets =>
    refine UnitSound.emptied _ _ rfl ?_
    cases hop : s.port.op <;> simp [ownBurstInFlight, softReset, softPort, hop]
  | deviceResets => exact UnitSound.emptied _ _ rfl rfl
  | _ => exact ⟨h.capacity, h.idle, h.apart, h.nonempty, h.claimKind, h.flightKind, h.books⟩

/-- Settles O54: each event moves cells from one account of the transfer to the next, and the last one empties
the unit. -/
theorem stepKeepsTransferAccounts : Obligations.StepKeepsTransferAccounts := by
  unfold Obligations.StepKeepsTransferAccounts
  simp only [transferSound_iff]
  intro s t h hstep
  refine step_induction
    (P := fun s => UnitSound s.tx s.port ∧ ∀ e ∈ s.req.queue, countChecked e.request = true)
    (fun _ _ hs => hs) (fun _ _ _ hact hs => ⟨act_keeps_unitSound hact hs.1 hs.2, ?_⟩) hstep h
  refine act_keeps_requests (p := fun q => countChecked q = true) hact (fun r q tag hr => ?_) hs.2
  obtain ⟨k, -, hq, -⟩ := stagedRequest_eq_ok hr
  exact parseArgs_countChecked hq

end Sys2Proof.Machine
end

section
/-! The queue of commands, periods of TCLK, ticks, engine control and the begin of a service. -/

namespace Sys2Proof.Machine

/-! ### The queue and TCLK -/

/-- Settles O1: the two sides are one definition. -/
theorem stepRunsFrontCommand : Obligations.StepRunsFrontCommand := by
  unfold Obligations.StepRunsFrontCommand
  intro c rest s hpending
  unfold step
  rw [hpending]

theorem act_keeps_pending {c : Instr} {s t : State} (hact : Act c s t) : t.pending = s.pending := by
  cases hact <;> rfl

/-- Settles O3: no change touches the queue of waiting commands. -/
theorem everyCommandAnswersNext : Obligations.EveryCommandAnswersNext := by
  unfold Obligations.EveryCommandAnswersNext
  intro c s
  exact ⟨effect c s, exec_eq_effect c s, effect_induction (P := fun a => a.pending = s.pending)
    (fun _ _ _ _ hact h => (act_keeps_pending hact).trans h) rfl⟩

theorem countRefreshTimer_of_left {s : State} (h : ∀ n ∈ s.port.refreshTimer, 2 ≤ n) :
    countRefreshTimer s =
      { s with port := { s.port with refreshTimer := s.port.refreshTimer.map fun n => n - 1 } } := by
  unfold countRefreshTimer
  cases htimer : s.port.refreshTimer with
  | none => exact congrArg (fun x => { s with port := { s.port with refreshTimer := x } }) htimer
  | some n =>
    have := h n htimer
    simp only [Option.map_some]
    rw [if_neg (by omega)]

theorem countRefreshTimer_of_last {s : State} {n : Nat} (h : s.port.refreshTimer = some n) (hn : n ≤ 1) :
    countRefreshTimer s = refreshExpires s := by
  simp only [countRefreshTimer, h, hn, if_true]

theorem countStarvationTimer_of_left {s : State} (h : ∀ m ∈ s.tx.timer, 2 ≤ m) :
    countStarvationTimer s = { s with tx := { s.tx with timer := s.tx.timer.map fun m => m - 1 } } := by
  unfold countStarvationTimer
  cases htimer : s.tx.timer with
  | none => exact congrArg (fun x => { s with tx := { s.tx with timer := x } }) htimer
  | some m =>
    have := h m htimer
    simp only [Option.map_some]
    rw [if_neg (by omega)]

theorem countStarvationTimer_of_last {s : State} {m : Nat} (h : s.tx.timer = some m) (hm : m ≤ 1) :
    countStarvationTimer s = starvationExpires s := by
  simp only [countStarvationTimer, h, hm, if_true]

theorem exec_refreshTimerExpiry_of_running {s : State} (hheld : s.held = false) {n : Nat}
    (h : s.port.refreshTimer = some n) : exec .refreshTimerExpiry s = .next (refreshExpires s) := by
  rw [exec_of_released (c := .refreshTimerExpiry) rfl hheld, h]
  rfl

theorem exec_starvationTimerExpiry_of_running {s : State} (hheld : s.held = false) {m : Nat}
    (h : s.tx.timer = some m) : exec .starvationTimerExpiry s = .next (starvationExpires s) := by
  rw [exec_of_released (c := .starvationTimerExpiry) rfl hheld, h]
  rfl

/-- Settles O2: the period is counted at the Refresh Timer and then at the starvation timer. -/
theorem emptyQueuePassesOneTclkPeriod : Obligations.EmptyQueuePassesOneTclkPeriod := by
  unfold Obligations.EmptyQueuePassesOneTclkPeriod
  intro s hpending
  have hstep : step s = .next (tclkPeriod s) := by unfold step; rw [hpending]
  refine ⟨fun hheld => ?held, fun hheld => ?released⟩
  case held => rw [hstep, tclkPeriod, whenReleased_of_held hheld]
  case released =>
    have hperiod : step s = .next (countStarvationTimer (countRefreshTimer s)) := by
      rw [hstep, tclkPeriod, whenReleased_of_released hheld]
    rw [hperiod]
    refine ⟨fun hleft htleft => ?_, fun n hn hlast htleft => ?_, fun m hleft hm hlast => ?_,
      fun n m hn hlast hm htlast => ?_⟩
    · rw [countRefreshTimer_of_left hleft]
      exact congrArg Host.Outcome.next (countStarvationTimer_of_left htleft)
    · refine ⟨_, exec_refreshTimerExpiry_of_running hheld hn, ?_⟩
      rw [countRefreshTimer_of_last hn hlast]
      exact congrArg Host.Outcome.next (countStarvationTimer_of_left (s := refreshExpires s) htleft)
    · have hcounted := countRefreshTimer_of_left hleft
      rw [← hcounted, exec_starvationTimerExpiry_of_running (m := m) (by rw [hcounted]; exact hheld)
        (by rw [hcounted]; exact hm)]
      exact congrArg Host.Outcome.next (countStarvationTimer_of_last (m := m) (by rw [hcounted]; exact hm) hlast)
    · refine ⟨_, exec_refreshTimerExpiry_of_running hheld hn, ?_⟩
      rw [countRefreshTimer_of_last hn hlast,
        exec_starvationTimerExpiry_of_running (s := refreshExpires s) hheld hm]
      exact congrArg Host.Outcome.next (countStarvationTimer_of_last (s := refreshExpires s) hm htlast)

/-! ### Ticks (R44, R48, R49) -/

/-- A tick of a source arrives when that source is selected, and is ignored otherwise (R44). -/
theorem exec_tickCommand {s : State} (hheld : s.held = false) (src : TickSource) :
    exec (tickCommand src) s = .next (if s.eng.tickSource = src then tickArrives s else s) := by
  cases src
  · exact exec_of_released (c := .tickArrival) rfl hheld
  · exact exec_of_released (c := .step) rfl hheld

theorem exec_tickCommand_selected {s : State} (hheld : s.held = false) :
    exec (tickCommand s.eng.tickSource) s = .next (tickArrives s) := by
  rw [exec_tickCommand hheld, if_pos rfl]

/-- A counter counts up to its largest value `m` (R49, R127). -/
theorem satSucc_of_largest {n : Nat} {m : BitVec n} (c : BitVec n) (h : BitVec.allOnes n = m) :
    satSucc c = if c = m then m else c + 1 := by
  rw [satSucc, h]
  split
  · next hm => exact hm
  · rfl

theorem tickArrives_of_lost {s : State} (hstate : s.eng.state = .waiting ∨ s.eng.state = .servicing)
    (hpending : s.eng.pendingTick = true) : tickArrives s = loseTick s := by
  unfold tickArrives
  rw [hpending]
  rcases hstate with hstate | hstate <;> rw [hstate]

/-- Settles O5: the tick of the selected source arrives, by engine state and pending tick. -/
theorem tickByEngineState : Obligations.TickByEngineState := by
  unfold Obligations.TickByEngineState
  intro s hheld
  rw [exec_tickCommand_selected hheld]
  refine ⟨fun src hsrc => ?_, fun hstate => ?_, fun hstate hpending => ?_, fun hstate hpending => ?_⟩
  · rw [exec_tickCommand hheld, if_neg (Ne.symm hsrc)]
  · unfold tickArrives
    rcases hstate with hstate | hstate <;> rw [hstate]
  · rw [tickArrives_of_lost hstate hpending, loseTick, satSucc_of_largest _ (m := 65535#16) (by decide)]
  · unfold tickArrives
    rw [hstate, hpending]

/-! ### The begin of a service (R53, R54, R80) -/

/-- A begin is `beginService` with the pending tick cleared. -/
theorem exec_of_begins {c : Instr} {s : State} (h : Begins c s) :
    exec c s = .next (beginService { s with eng := { s.eng with pendingTick := false } }) := by
  obtain ⟨hheld, hstate, ⟨rfl, hpending⟩ | ⟨rfl, hpending⟩⟩ := h
  · have hs : s = { s with eng := { s.eng with pendingTick := false } } := by rw [← hpending]
    rw [exec_tickCommand_selected hheld, tickArrives, hstate, hpending]
    exact congrArg (fun a => Host.Outcome.next (beginService a)) hs
  · rw [exec_of_released (c := .pendingStart) rfl hheld, if_pos ⟨hstate, hpending⟩]

theorem staleSlots_getLsbD (s : State) (i : Fin 16) : (staleSlots s).getLsbD i.val = true ↔ SlotStale s i := by
  unfold staleSlots SlotStale
  rw [flags16_getLsbD, Bool.and_eq_true, someLine_eq_true, Bool.not_eq_true']
  simp [LineRec.runsOnInput]

/-- No slot is stale exactly when the mask of stale slots is 0. -/
theorem staleSlots_eq_zero (s : State) : staleSlots s = 0 ↔ ∀ i, ¬ SlotStale s i := by
  rw [half_eq_zero_iff]
  exact forall_congr' fun i => by rw [← staleSlots_getLsbD, Bool.not_eq_true]

theorem armMark_eq_ite (n : FrameNo) (m : Option MarkState) :
    armMark n m = if m = some .unarmed then some (.armed n) else m := by
  unfold armMark
  split
  · rfl
  · next h => rw [if_neg h]

/-- Settles O6: the stale mask gains the stale slots, and INPUT_STALE tells whether there are any. -/
theorem serviceBegins : Obligations.ServiceBegins := by
  unfold Obligations.ServiceBegins
  intro c s hbegins
  refine ⟨_, exec_of_begins hbegins, ?_, fun i => ?_, fun hstale => ?_, fun hfresh => ?_⟩
  · simp only [← armMark_eq_ite]
    rfl
  · rw [← staleSlots_getLsbD, beginService_eng, BitVec.getLsbD_or, Bool.or_eq_true]
    rfl
  · have hne : staleSlots s ≠ 0 := fun hzero => by
      obtain ⟨i, hi⟩ := hstale
      exact (staleSlots_eq_zero s).1 hzero i hi
    change raiseFlagIf (decide (staleSlots s ≠ 0)) .inputStale s.ev = _
    rw [decide_eq_true hne, raiseFlagIf_true]
  · have hzero := (staleSlots_eq_zero s).2 hfresh
    change raiseFlagIf (decide (staleSlots s ≠ 0)) .inputStale s.ev = _
    rw [decide_eq_false (not_not.2 hzero), raiseFlagIf_false]

/-! ### Go, stop and the tick source (R44 to R47) -/

theorem stopMark_eq_ite (m : Option MarkState) :
    stopMark m = if m = some .unarmed then some .dueStopped else m := by
  unfold stopMark
  split
  · rfl
  · next h => rw [if_neg h]

theorem exec_tickSource {s : State} (hheld : s.held = false) (field : BitVec 2) :
    exec (.tickSource field) s = .next (sourceRequest field s) :=
  exec_of_released (c := .tickSource field) rfl hheld

/-- Settles O7: each request by the engine state, the field by the source it names. -/
theorem goStopAndSourceByEngineState : Obligations.GoStopAndSourceByEngineState := by
  unfold Obligations.GoStopAndSourceByEngineState
  intro s hheld
  refine ⟨exec_of_released (c := .engineGo) rfl hheld, ?_, exec_tickSource hheld 0, exec_tickSource hheld 3, ?_⟩
  · rw [exec_of_released (c := .engineStop) rfl hheld, stopRequest]
    cases s.eng.state <;> simp only [stopMark_eq_ite]
  · rintro field src (⟨rfl, rfl⟩ | ⟨rfl, rfl⟩) <;> exact exec_tickSource hheld _

theorem runRows_append (cs ds : List Instr) (s : State) :
    runRows (cs ++ ds) s = runRows ds (runRows cs s) := by
  induction cs generalizing s with
  | nil => rfl
  | cons c cs ih => exact ih (effect c s)

/-- A part that its bit asks for runs its row; a part not asked for runs none. -/
theorem exec_part (b : Bool) (c : Instr) (s : State) :
    (if b then exec c s else .next s) = .next (runRows (if b then [c] else []) s) := by
  cases b
  · rfl
  · exact exec_eq_effect c s

/-- Settles O8: the run of the rows of a CTRL write, part by part. -/
theorem ctrlWriteTakesPartsInOrder : Obligations.CtrlWriteTakesPartsInOrder := by
  unfold Obligations.CtrlWriteTakesPartsInOrder
  intro v s hheld
  have hwrite : exec (.registerWrite 0 v) s = .next (runRows (ctrlRows v) s) := by
    rw [exec_eq_effect, effect_registerWrite_eq_runRows]
    rfl
  rw [hwrite]
  refine ⟨fun hreset => ?_, fun hreset => ?_⟩
  · rw [ctrlRows, if_pos hreset, exec_eq_effect]
    rfl
  · refine ⟨_, _, _, exec_eq_effect _ _, exec_part _ _ _, exec_part _ _ _, ?_⟩
    rw [exec_part, ctrlRows, if_neg (by rw [hreset]; exact Bool.false_ne_true)]
    simp only [runRows_append, runRows_cons]

end Sys2Proof.Machine
end

section
/-! The stages of a service, the publish, and the engine's accesses at the port. -/

namespace Sys2Proof.Machine

/-! ### The turn that is due -/

/-- What the turn of an item says of the turns left: none is left to an earlier stage, and one is left to the
item (R52). -/
def ItemDue (s : State) : Item → Prop
  | .glide t _ => glideLeft s t = true
  | .line l _ => (∀ u, glideLeft s u = false) ∧ lineLeft s l = true
  | .tap t _ => (∀ u, glideLeft s u = false) ∧ (∀ k, lineLeft s k = false) ∧ tapLeft s t = true
  | .publish => (∀ u, glideLeft s u = false) ∧ (∀ k, lineLeft s k = false) ∧ ∀ u, tapLeft s u = false

theorem itemDue_of_currentItem {s : State} {i : Item} (h : currentItem s = some i) : ItemDue s i := by
  have hservice : inService s = true := by
    by_contra hout
    rw [currentItem_eq_none (.inl (Bool.not_eq_true _ ▸ hout))] at h
    cases h
  have hrest : s.eng.stage ≠ .rest := by
    intro hrest
    rw [currentItem_eq_none (.inr hrest)] at h
    cases h
  rcases currentItem_cases hservice hrest with ⟨t, r, hitem, hleft⟩ | ⟨hglides, hlater⟩
  · cases hitem.symm.trans h
    exact hleft
  rcases hlater with ⟨l, r, hitem, -, hleft, -⟩ | ⟨hlines, hlater⟩
  · cases hitem.symm.trans h
    exact ⟨hglides, hleft⟩
  rcases hlater with ⟨t, r, hitem, -, hleft, -⟩ | ⟨htaps, hitem⟩
  · cases hitem.symm.trans h
    exact ⟨hglides, hlines, hleft⟩
  · cases hitem.symm.trans h
    exact ⟨hglides, hlines, htaps⟩

/-- Two numbers that are each the first with a turn left are one. -/
theorem first_unique {n : Nat} {left : Fin n → Bool} {i j : Fin n} (hi : left i = true)
    (hbi : ∀ k < i, left k = false) (hj : left j = true) (hbj : ∀ k < j, left k = false) : i = j := by
  rcases lt_trichotomy i j with hlt | heq | hgt
  · rw [hbj i hlt] at hi
    cases hi
  · exact heq
  · rw [hbi j hgt] at hj
    cases hj

/-- The first line left has its turn once no gliding tap is left (R52, R57). -/
theorem currentItem_eq_line {s : State} {l : Fin 32} {r : LineRec} (hservice : inService s = true)
    (hglides : ∀ u, glideLeft s u = false) (hl : s.lines[l] = some r) (hleft : lineLeft s l = true)
    (hfirst : ∀ k < l, lineLeft s k = false) : currentItem s = some (.line l r) := by
  have hrest : s.eng.stage ≠ .rest := by
    intro hrest
    simp [lineLeft, lineAhead, hrest] at hleft
  rcases currentItem_cases hservice hrest with ⟨t, q, -, ht⟩ | ⟨-, hlater⟩
  · rw [hglides t] at ht
    cases ht
  rcases hlater with ⟨k, q, hitem, hq, hk, hbefore⟩ | ⟨hlines, -⟩
  · obtain rfl := first_unique hleft hfirst hk hbefore
    cases hl.symm.trans hq
    exact hitem
  · rw [hlines l] at hleft
    cases hleft

/-- The first tap left has its turn once no gliding tap and no line is left (R52, R58). -/
theorem currentItem_eq_tap {s : State} {t : Fin 128} {r : TapRec} (hservice : inService s = true)
    (hglides : ∀ u, glideLeft s u = false) (hlines : ∀ k, lineLeft s k = false) (ht : s.taps[t] = some r)
    (hleft : tapLeft s t = true) (hfirst : ∀ u < t, tapLeft s u = false) :
    currentItem s = some (.tap t r) := by
  have hrest : s.eng.stage ≠ .rest := by
    intro hrest
    simp [tapLeft, tapAhead, hrest] at hleft
  rcases currentItem_cases hservice hrest with ⟨u, q, -, hu⟩ | ⟨-, hlater⟩
  · rw [hglides u] at hu
    cases hu
  rcases hlater with ⟨k, q, -, -, hk, -⟩ | ⟨-, hlater⟩
  · rw [hlines k] at hk
    cases hk
  rcases hlater with ⟨u, q, hitem, hq, hu, hbefore⟩ | ⟨htaps, -⟩
  · obtain rfl := first_unique hleft hfirst hu hbefore
    cases ht.symm.trans hq
    exact hitem
  · rw [htaps t] at hleft
    cases hleft

/-- The publish has its turn once no turn is left (R52, R59). -/
theorem currentItem_eq_publish {s : State} (hservice : inService s = true) (hrest : s.eng.stage ≠ .rest)
    (hglides : ∀ u, glideLeft s u = false) (hlines : ∀ k, lineLeft s k = false)
    (htaps : ∀ u, tapLeft s u = false) : currentItem s = some .publish := by
  rcases currentItem_cases hservice hrest with ⟨u, q, -, hu⟩ | ⟨-, hlater⟩
  · rw [hglides u] at hu
    cases hu
  rcases hlater with ⟨k, q, -, -, hk, -⟩ | ⟨-, hlater⟩
  · rw [hlines k] at hk
    cases hk
  rcases hlater with ⟨u, q, -, -, hu, -⟩ | ⟨-, hitem⟩
  · rw [htaps u] at hu
    cases hu
  · exact hitem

/-! ### The commands of the stages, by the turn that is due -/

/-- A guarded row whose meaning changes nothing changes nothing, held or not. -/
theorem exec_of_unchanged {c : Instr} {s : State} {f : State → State}
    (hexec : exec c s = .next (whenReleased s f)) (h : f s = s) : exec c s = .next s := by
  rw [hexec]
  unfold whenReleased
  rw [h, ite_self]

theorem exec_glideStage_of_turn {s : State} {t : Fin 128} {r : TapRec} (hheld : s.held = false)
    (hitem : currentItem s = some (.glide t r)) : exec .glideStage s = .next (glideTurn t r s) := by
  rw [exec_of_released (c := .glideStage) rfl hheld, hitem]

theorem exec_glideStage_of_other {s : State} (h : ∀ t r, currentItem s ≠ some (.glide t r)) :
    exec .glideStage s = .next s := by
  refine exec_of_unchanged (c := .glideStage) rfl ?_
  split
  · next t r hitem => exact absurd hitem (h t r)
  · rfl

theorem exec_lineWriteStage_of_turn {s : State} {l : Fin 32} {r : LineRec} (hheld : s.held = false)
    (hwaits : engineWaits s.port = false) (hitem : currentItem s = some (.line l r)) :
    exec .lineWriteStage s = .next (lineTurn l r s) := by
  rw [exec_of_released (c := .lineWriteStage) rfl hheld, hwaits, hitem]
  rfl

theorem exec_lineWriteStage_of_other {s : State}
    (h : engineWaits s.port = true ∨ ∀ l r, currentItem s ≠ some (.line l r)) :
    exec .lineWriteStage s = .next s := by
  refine exec_of_unchanged (c := .lineWriteStage) rfl ?_
  rcases h with hwaits | h
  · rw [if_pos hwaits]
  · split
    · rfl
    · split
      · next l r hitem => exact absurd hitem (h l r)
      · rfl

theorem exec_tapReadStage_of_turn {s : State} {t : Fin 128} {r : TapRec} (hheld : s.held = false)
    (hwaits : engineWaits s.port = false) (hitem : currentItem s = some (.tap t r)) :
    exec .tapReadStage s = .next (tapTurn t r s) := by
  rw [exec_of_released (c := .tapReadStage) rfl hheld, hwaits, hitem]
  rfl

theorem exec_tapReadStage_of_other {s : State}
    (h : engineWaits s.port = true ∨ ∀ t r, currentItem s ≠ some (.tap t r)) :
    exec .tapReadStage s = .next s := by
  refine exec_of_unchanged (c := .tapReadStage) rfl ?_
  rcases h with hwaits | h
  · rw [if_pos hwaits]
  · split
    · rfl
    · split
      · next t r hitem => exact absurd hitem (h t r)
      · rfl

theorem exec_publish_of_turn {s : State} (hheld : s.held = false) (hwaits : engineWaits s.port = false)
    (hitem : currentItem s = some .publish) : exec .publish s = .next (publishService s) := by
  rw [exec_of_released (c := .publish) rfl hheld, if_pos ⟨hwaits, hitem⟩]

theorem exec_publish_of_other {s : State} (h : engineWaits s.port = true ∨ currentItem s ≠ some .publish) :
    exec .publish s = .next s := by
  refine exec_of_unchanged (c := .publish) rfl (if_neg ?_)
  rintro ⟨hwaits, hitem⟩
  rcases h with h | h
  · rw [h] at hwaits
    cases hwaits
  · exact h hitem

/-! ### Glides (R31 to R33, R56) -/

/-- A glide move in terms of the two delays. -/
theorem TapRec.glided_current (r : TapRec) : r.glided.current =
    if r.step = 0 then r.target
    else if r.current ≤ r.target then min (r.current + r.step) r.target
    else max (r.current - r.step) r.target := by
  unfold TapRec.glided
  split_ifs <;> simp only [] <;> omega

theorem TapRec.glided_gliding (r : TapRec) : r.glided.gliding = decide (r.glided.current ≠ r.target) := rfl

theorem raiseFlagIf_decide (p : Prop) [Decidable p] (e : Event) (ev : EventUnit) :
    raiseFlagIf (decide p) e ev = if p then raiseFlag e ev else ev := by
  by_cases h : p <;> simp [h]

/-- A turn of the glide stage by whether the tap arrives (R32, R33). -/
theorem glideTurn_eq_arrival (t : Fin 128) (r : TapRec) (s : State) :
    glideTurn t r s = { s with
      taps := s.taps.set t (some r.glided)
      glideCount := if r.glided.current = r.target then s.glideCount - 1 else s.glideCount
      eng := { s.eng with stage := .glides (t.val + 1) }
      ev := if r.glided.current = r.target ∧ s.glideCount = 1 then raiseFlag .glidesSettled s.ev else s.ev } := by
  rw [glideTurn_eq, TapRec.glided_gliding, ← raiseFlagIf_decide]
  by_cases harrives : r.glided.current = r.target <;> simp [harrives]

/-- Settles O9: the next gliding tap has its turn, and its move is `TapRec.glided`. -/
theorem glideStageMovesNextTap : Obligations.GlideStageMovesNextTap := by
  unfold Obligations.GlideStageMovesNextTap
  intro s n hheld hservice hstage
  have hitem : currentItem s = some (itemFromGlide s n) := by
    simp only [currentItem, hservice, if_true, hstage]
  refine ⟨fun t r hn ht hgliding hfirst => ?turn, fun hnone => ?none⟩
  case turn =>
    rw [itemFromGlide, nextTap_of_first hn ht hgliding hfirst] at hitem
    rw [exec_glideStage_of_turn hheld hitem, glideTurn_eq_arrival, ← TapRec.glided_current]
    rfl
  case none =>
    refine exec_glideStage_of_other fun t r hturn => ?_
    obtain ⟨-, m, hm, hmt, ht, hgliding⟩ := currentItem_glide hturn
    cases hstage.symm.trans hm
    rw [hnone t hmt r ht] at hgliding
    cases hgliding

theorem TapRec.iterate_glided_fixed (r : TapRec) (m : Nat) :
    (TapRec.glided^[m] r).target = r.target ∧ (TapRec.glided^[m] r).step = r.step := by
  induction m with
  | zero => exact ⟨rfl, rfl⟩
  | succ m ih => rw [Function.iterate_succ_apply']; exact ih

/-- How far a tap is from its target. -/
def TapRec.distance (r : TapRec) : Nat := (r.target - r.current) + (r.current - r.target)

/-- One move shortens the distance by the step (R33). -/
theorem TapRec.distance_glided {r : TapRec} (h : r.step ≠ 0) : r.glided.distance = r.distance - r.step := by
  have htarget : r.glided.target = r.target := rfl
  rw [TapRec.distance, TapRec.distance, htarget, TapRec.glided_current, if_neg h]
  split_ifs <;> omega

theorem TapRec.distance_iterate_glided {r : TapRec} (h : r.step ≠ 0) (m : Nat) :
    (TapRec.glided^[m] r).distance = r.distance - m * r.step := by
  induction m with
  | zero => simp
  | succ m ih =>
    have hstep := (r.iterate_glided_fixed m).2
    rw [Function.iterate_succ_apply', TapRec.distance_glided (by rw [hstep]; exact h), ih, hstep, Nat.succ_mul]
    omega

/-- Settles O10: each move shortens the distance by the step, so it is 0 once the moves cover it. -/
theorem glideLastsDistanceOverStep : Obligations.GlideLastsDistanceOverStep := by
  unfold Obligations.GlideLastsDistanceOverStep
  intro r
  refine ⟨fun hstep m => ?_, fun hstep => ?_⟩
  · have hdistance := TapRec.distance_iterate_glided hstep m
    rw [TapRec.distance, (r.iterate_glided_fixed m).1, TapRec.distance] at hdistance
    omega
  · have harrives : r.glided.current = r.target := by rw [TapRec.glided_current, if_pos hstep]
    exact ⟨harrives, by rw [TapRec.glided_gliding, harrives, decide_eq_false (not_not.2 rfl)]⟩

/-! ### Line and tap turns (R52, R57, R58) -/

theorem no_glide_turn {s : State} (h : ∀ u, glideLeft s u = false) (t : Fin 128) (r : TapRec) :
    currentItem s ≠ some (.glide t r) := by
  intro hitem
  have hleft : glideLeft s t = true := itemDue_of_currentItem hitem
  rw [h t] at hleft
  cases hleft

theorem no_line_turn {s : State} (h : (∃ u, glideLeft s u = true) ∨ ∀ k, lineLeft s k = false) (l : Fin 32)
    (r : LineRec) : currentItem s ≠ some (.line l r) := by
  intro hitem
  obtain ⟨hglides, hleft⟩ := itemDue_of_currentItem hitem
  rcases h with ⟨u, hu⟩ | h
  · exact Bool.false_ne_true ((hglides u).symm.trans hu)
  · exact Bool.false_ne_true ((h l).symm.trans hleft)

theorem no_tap_turn {s : State}
    (h : (∃ u, glideLeft s u = true) ∨ (∃ k, lineLeft s k = true) ∨ ∀ u, tapLeft s u = false) (t : Fin 128)
    (r : TapRec) : currentItem s ≠ some (.tap t r) := by
  intro hitem
  obtain ⟨hglides, hlines, hleft⟩ := itemDue_of_currentItem hitem
  rcases h with ⟨u, hu⟩ | ⟨k, hk⟩ | h
  · exact Bool.false_ne_true ((hglides u).symm.trans hu)
  · exact Bool.false_ne_true ((hlines k).symm.trans hk)
  · exact Bool.false_ne_true ((h t).symm.trans hleft)

theorem no_publish_turn {s : State}
    (h : (∃ u, glideLeft s u = true) ∨ (∃ k, lineLeft s k = true) ∨ ∃ u, tapLeft s u = true) :
    currentItem s ≠ some .publish := by
  intro hitem
  obtain ⟨hglides, hlines, htaps⟩ := itemDue_of_currentItem hitem
  rcases h with ⟨u, hu⟩ | ⟨k, hk⟩ | ⟨u, hu⟩
  · exact Bool.false_ne_true ((hglides u).symm.trans hu)
  · exact Bool.false_ne_true ((hlines k).symm.trans hk)
  · exact Bool.false_ne_true ((htaps u).symm.trans hu)

theorem no_turn_out_of_service {s : State} (h : inService s = false) (i : Item) : currentItem s ≠ some i := by
  rw [currentItem_eq_none (.inl h)]
  exact (Option.some_ne_none i).symm

/-- Settles O11: a command of a stage acts on the turn that is due, and each turn left to an earlier stage
excludes it. -/
theorem stageTurnsClaimOrGoOn : Obligations.StageTurnsClaimOrGoOn := by
  unfold Obligations.StageTurnsClaimOrGoOn
  refine ⟨fun s hheld hservice hwaits hglides => ⟨fun l r hl hleft hfirst => ?line,
    fun hlines t r lr ht hlr hleft hfirst => ?tap⟩, fun s => ?order⟩
  case line =>
    have hitem := currentItem_eq_line hservice hglides hl hleft hfirst
    rw [exec_lineWriteStage_of_turn hheld hwaits hitem, lineTurn]
    refine ⟨fun hmode => ?_, fun loop hmode => ?_⟩
    · rw [hmode]
      rfl
    · rw [hmode]
      rfl
  case tap =>
    have hitem := currentItem_eq_tap hservice hglides hlines ht hleft hfirst
    have hcell : tapSampleCell s r = lr.tapCell r.current := by rw [tapSampleCell, hlr, Option.bind_some]
    rw [exec_tapReadStage_of_turn hheld hwaits hitem, tapTurn, hcell]
    refine ⟨fun cell hsome => ?_, fun hnone => ?_⟩
    · rw [hsome]
    · rw [hnone]
      rfl
  case order =>
    refine ⟨fun hglide => ⟨?_, ?_, ?_⟩, fun hline => ⟨?_, ?_⟩, fun htap => ?_, fun hwaits => ⟨?_, ?_, ?_⟩,
      fun hglides => ?_, fun hlines => ?_, fun htaps => ?_, fun hout c hc => ?_⟩
    · exact exec_lineWriteStage_of_other (.inr (no_line_turn (.inl hglide)))
    · exact exec_tapReadStage_of_other (.inr (no_tap_turn (.inl hglide)))
    · exact exec_publish_of_other (.inr (no_publish_turn (.inl hglide)))
    · exact exec_tapReadStage_of_other (.inr (no_tap_turn (.inr (.inl hline))))
    · exact exec_publish_of_other (.inr (no_publish_turn (.inr (.inl hline))))
    · exact exec_publish_of_other (.inr (no_publish_turn (.inr (.inr htap))))
    · exact exec_lineWriteStage_of_other (.inl hwaits)
    · exact exec_tapReadStage_of_other (.inl hwaits)
    · exact exec_publish_of_other (.inl hwaits)
    · exact exec_glideStage_of_other (no_glide_turn hglides)
    · exact exec_lineWriteStage_of_other (.inr (no_line_turn (.inr hlines)))
    · exact exec_tapReadStage_of_other (.inr (no_tap_turn (.inr (.inr htaps))))
    · have hturn := no_turn_out_of_service hout
      rcases hc with rfl | rfl | rfl | rfl
      · exact exec_glideStage_of_other fun t r => hturn (.glide t r)
      · exact exec_lineWriteStage_of_other (.inr fun l r => hturn (.line l r))
      · exact exec_tapReadStage_of_other (.inr fun t r => hturn (.tap t r))
      · exact exec_publish_of_other (.inr (hturn .publish))

/-! ### The cell a tap reads (R6 to R8) -/

/-- "Modulo" of a negative number, by the number it is congruent to. -/
theorem toNat_emod_of_add {a : Int} {n b : Nat} (h : a + n = b) : (a % (n : Int)).toNat = b % n := by
  rw [← Int.add_emod_right, h, ← Int.natCast_mod, Int.toNat_natCast]

theorem LineRec.cellAt_eq {r : LineRec} {age : Nat} (hage : age < r.length) :
    r.cellAt age = r.base + (r.head + r.length - 1 - age) % r.length := by
  rw [LineRec.cellAt, toNat_emod_of_add (b := r.head + r.length - 1 - age) (by omega)]

/-- Settles O12: the age by the line's mode, and the cell of an age by the head. -/
theorem tapReadsBehindHead : Obligations.TapReadsBehindHead := by
  unfold Obligations.TapReadsBehindHead
  intro r d _ hd
  refine ⟨fun hmode => ?_, fun loop hmode hloop => ?_, fun hmode => ?_⟩
  · rw [LineRec.tapCell, LineRec.effectiveAge, hmode]
    simp only [LineRec.cellAt_eq hd]
  · have hage : (((d : Int) - loop) % (r.length : Int)).toNat = (d + r.length - loop) % r.length :=
      toNat_emod_of_add (by omega)
    rw [LineRec.tapCell, LineRec.effectiveAge, hmode]
    simp only [hage, LineRec.cellAt_eq (Nat.mod_lt _ (Nat.zero_lt_of_lt hd))]
  · rw [LineRec.tapCell, LineRec.effectiveAge, hmode]

/-! ### The publish (R38, R50, R59, R80, R81) -/

theorem publishMark_eq_ite (n : FrameNo) (m : Option MarkState) :
    publishMark n m = if m = some (.armed n) then some (.dueOk n) else m := by
  unfold publishMark
  split
  · next k =>
    by_cases hk : k = n <;> simp [hk]
  · next h => rw [if_neg (h n)]

theorem limitToCell_toInt (x : Int) : (limitToCell x).toInt = max (-8388608) (min 8388607 x) := by
  rw [limitToCell, BitVec.toInt_ofInt]
  exact Int.bmod_eq_of_le (by omega) (by omega)

theorem saturates_eq_true (x : Int) : saturates x = true ↔ x < -8388608 ∨ 8388607 < x := by
  simp [saturates]

theorem scaledBack_eq_fdiv (a : Int) : scaledBack a = Int.fdiv a 16384 := by
  rw [scaledBack, Int.fdiv_eq_ediv_of_nonneg _ (by decide)]

/-- A publish makes a MARK due that is armed on its frame, and on the way to STOPPED an unarmed one (R80, R81). -/
theorem publishService_mark (s : State) : (publishService s).req.mark =
    if s.req.mark = some (.armed s.eng.fseq) then some (.dueOk s.eng.fseq)
    else if s.eng.state = .stopping ∧ s.req.mark = some .unarmed then some .dueStopped
    else s.req.mark := by
  change (if s.eng.state = .stopping then stopMark (publishMark s.eng.fseq s.req.mark)
    else publishMark s.eng.fseq s.req.mark) = _
  rw [stopMark_eq_ite, publishMark_eq_ite]
  by_cases harmed : s.req.mark = some (.armed s.eng.fseq)
  · simp [harmed]
  · by_cases hstate : s.eng.state = .stopping <;> simp [harmed, hstate]

theorem publishedBank_value (e : Engine) (b : Fin 16) :
    (publishedBank e).values[b] = limitToCell (scaledBack e.acc[b]) := by
  simp [publishedBank]

theorem publishedBank_sat (e : Engine) (b : Fin 16) :
    (publishedBank e).sat.getLsbD b.val = saturates (scaledBack e.acc[b]) :=
  flags16_getLsbD _ b

theorem publishService_ev (s : State) : (publishService s).ev =
    if (publishService s).eng.bank.sat ≠ 0 then raiseFlag .saturation (raiseFlag .frameDone s.ev)
    else raiseFlag .frameDone s.ev :=
  raiseFlagIf_decide _ _ _

/-- Settles O13: with no turn left the publish is due, and `publishService` says what it leaves. -/
theorem publishEndsService : Obligations.PublishEndsService := by
  unfold Obligations.PublishEndsService
  intro s hheld hservice hrest hwaits hglides hlines htaps
  have hitem := currentItem_eq_publish hservice hrest hglides hlines htaps
  refine ⟨publishService s, exec_publish_of_turn hheld hwaits hitem, ?frame, rfl, fun b => ?_, fun b => ?_,
    fun hsat => ?_, fun hsat => ?_⟩
  case frame =>
    rw [← publishService_mark]
    rfl
  · exact (congrArg BitVec.toInt (publishedBank_value s.eng b)).trans
      (by rw [limitToCell_toInt, scaledBack_eq_fdiv])
  · exact (Bool.eq_iff_iff.1 (publishedBank_sat s.eng b)).trans
      (by rw [saturates_eq_true, scaledBack_eq_fdiv])
  · rw [publishService_ev, if_neg (not_not.2 hsat)]
  · rw [publishService_ev, if_pos hsat]

/-! ### The engine's accesses at the port (R4, R35, R36, R57, R58) -/

/-- What a cell returns turns on the value listed for it. -/
theorem Dram.valueAt_of_find {d e : Dram} {a : Nat} (hfitted : e.fitted = d.fitted) (hepoch : e.epoch = d.epoch)
    (hfind : findCell e.cells a = findCell d.cells a) (k : Nat) : e.valueAt k a = d.valueAt k a := by
  rw [Dram.valueAt, Dram.valueAt, hfitted, hepoch, hfind]

theorem Dram.valueAt_of_listed {d : Dram} {a : Nat} {v : Sample} (hfitted : a < d.fitted)
    (hfind : findCell d.cells a = some v) (k : Nat) : d.valueAt k a = v := by
  rw [Dram.valueAt, if_pos hfitted, hfind, Option.getD_some]

theorem Dram.valueAt_write_same {d : Dram} {a : Nat} (v : Sample) (h : a < d.fitted) (k : Nat) :
    (d.write a v).valueAt k a = v :=
  Dram.valueAt_of_listed (by rw [Dram.write_fitted]; exact h) (d.write_find_same a v h) k

theorem Dram.valueAt_write_other {d : Dram} {a b : Nat} (v : Sample) (h : b ≠ a) (k : Nat) :
    (d.write a v).valueAt k b = d.valueAt k b :=
  Dram.valueAt_of_find (d.write_fitted a v) (d.write_epoch a v) (d.write_find_other a b v h) k

theorem exec_lineWriteGrant_of_first {s : State} {l : Fin 32} {cell : Nat} {v : Sample} {p : Bool}
    (hheld : s.held = false) (hclaim : s.port.engineClaim = some ⟨.lineWrite l cell v, p⟩)
    (hfirst : engineIsFirst s.port p) : exec .lineWriteGrant s = .next (grantLineWrite l cell v s) := by
  rw [exec_of_released (c := .lineWriteGrant) rfl hheld, arbiter_engine hclaim hfirst, hclaim]

/-- Settles O14: the grant is `grantLineWrite`, whose cell the DRAM's rules tell apart from the others. -/
theorem lineWriteGrantStoresCell : Obligations.LineWriteGrantStoresCell := by
  unfold Obligations.LineWriteGrantStoresCell
  intro s l r cell v p hheld hclaim hfirst hl
  refine ⟨_, exec_lineWriteGrant_of_first hheld hclaim hfirst, ?_,
    fun k a ha => Dram.valueAt_write_other v ha k, fun k hcell => Dram.valueAt_write_same v hcell k⟩
  rw [grantLineWrite, hl]
  rfl

/-- Settles O15: the completion by the operation in flight and by whose it is. -/
theorem engineAccessCompletes : Obligations.EngineAccessCompletes := by
  unfold Obligations.EngineAccessCompletes
  intro s hheld
  refine ⟨fun l owned hop => ?_, fun t cell r hop ht => ?_, fun t cell hop => ?_⟩
  · rw [exec_of_released (c := .lineWriteCompletion) rfl hheld, hop]
    cases owned <;> rfl
  · rw [exec_of_released (c := .tapReadCompletion) rfl hheld, hop]
    simp only [if_true, addProduct_eq, accAfter, countReads_taps, freePort_taps, ht]
    rfl
  · rw [exec_of_released (c := .tapReadCompletion) rfl hheld, hop]
    rfl

end Sys2Proof.Machine
end

section
/-! The Memory Port: the arbiter's grants, the completions of bursts and refresh, the timers, and the DRAM. -/

namespace Sys2Proof.Machine

/-! ### The arbiter's choice -/

/-- What the arbiter's grant of a claimant says of the ranks (R123). -/
theorem engineIsFirst_of_arbiter {p : MemoryPort} {c : EngineClaim} (h : arbiter p = some .engine)
    (hclaim : p.engineClaim = some c) : engineIsFirst p c.promoted := by
  obtain ⟨hop, hbest⟩ := arbiter_eq_some h
  refine ⟨hop, ?_⟩
  rw [← refreshUrgent_eq_true]
  by_contra hlater
  obtain ⟨hpromoted, hurgent⟩ := not_or.1 hlater
  simp [bestClaim, hclaim, hpromoted, not_not.1 hurgent] at hbest

theorem refreshIsFirst_of_arbiter {p : MemoryPort} (h : arbiter p = some .refresh) : refreshIsFirst p := by
  obtain ⟨hop, hbest⟩ := arbiter_eq_some h
  unfold bestClaim at hbest
  split at hbest
  · cases hbest
  next hpromoted =>
    split at hbest
    · next hurgent =>
      obtain ⟨hon, hdebt⟩ := (refreshUrgent_eq_true p).1 hurgent
      refine ⟨hop, hon, by omega, .inr ⟨hdebt, fun c hc => ?_⟩⟩
      simpa [Option.mem_def.1 hc] using hpromoted
    · split at hbest
      · cases hbest
      next hnone =>
        split at hbest
        · next hstands =>
          obtain ⟨hon, hdebt⟩ := (refreshStands_eq_true p).1 hstands
          exact ⟨hop, hon, hdebt, .inl (by simpa using hnone)⟩
        · split at hbest <;> cases hbest

theorem transferIsFirst_of_arbiter {p : MemoryPort} (h : arbiter p = some .transfer) : transferIsFirst p := by
  obtain ⟨hop, hbest⟩ := arbiter_eq_some h
  unfold bestClaim at hbest
  split at hbest
  · cases hbest
  split at hbest
  · cases hbest
  split at hbest
  · cases hbest
  next hnone =>
    split at hbest
    · cases hbest
    next hstands => exact ⟨hop, by simpa using hnone, by rw [← refreshStands_eq_true]; exact hstands⟩

/-- The claimant whose claim a grant takes (R121). -/
def granted : Instr → Claimant
  | .refreshGrant => .refresh
  | .writeBurstGrant => .transfer
  | .readBurstGrant => .transfer
  | .fillBurstGrant => .transfer
  | _ => .engine

theorem isGrant_eq_true (c : Instr) : isGrant c = true ↔
    c = .lineWriteGrant ∨ c = .tapReadGrant ∨ c = .writeBurstGrant ∨ c = .readBurstGrant ∨
      c = .fillBurstGrant ∨ c = .refreshGrant := by
  simp [isGrant]

theorem exec_lineWriteGrant_of_other {s : State} (h : ¬ (arbiter s.port = some .engine ∧
    ∃ l cell v p, s.port.engineClaim = some ⟨.lineWrite l cell v, p⟩)) : exec .lineWriteGrant s = .next s := by
  refine exec_of_unchanged (c := .lineWriteGrant) rfl ?_
  split
  · next harb hclaim => exact absurd ⟨harb, _, _, _, _, hclaim⟩ h
  · rfl

theorem exec_tapReadGrant_of_other {s : State} (h : ¬ (arbiter s.port = some .engine ∧
    ∃ t cell p, s.port.engineClaim = some ⟨.tapRead t cell, p⟩)) : exec .tapReadGrant s = .next s := by
  refine exec_of_unchanged (c := .tapReadGrant) rfl ?_
  split
  · next harb hclaim => exact absurd ⟨harb, _, _, _, hclaim⟩ h
  · rfl

theorem exec_writeBurstGrant_of_other {s : State} (h : ¬ (arbiter s.port = some .transfer ∧
    ∃ address size, s.port.txClaim = some ⟨.write, address, size⟩)) : exec .writeBurstGrant s = .next s := by
  refine exec_of_unchanged (c := .writeBurstGrant) rfl ?_
  split
  · next harb hclaim => exact absurd ⟨harb, _, _, hclaim⟩ h
  · rfl

theorem exec_readBurstGrant_of_other {s : State} (h : ¬ (arbiter s.port = some .transfer ∧
    ∃ address size, s.port.txClaim = some ⟨.read, address, size⟩)) : exec .readBurstGrant s = .next s := by
  refine exec_of_unchanged (c := .readBurstGrant) rfl ?_
  split
  · next harb hclaim => exact absurd ⟨harb, _, _, hclaim⟩ h
  · rfl

theorem exec_fillBurstGrant_of_other {s : State} (h : ¬ (arbiter s.port = some .transfer ∧
    ∃ address size v, s.port.txClaim = some ⟨.fill v, address, size⟩)) : exec .fillBurstGrant s = .next s := by
  refine exec_of_unchanged (c := .fillBurstGrant) rfl ?_
  split
  · next harb hclaim => exact absurd ⟨harb, _, _, _, hclaim⟩ h
  · rfl

theorem exec_refreshGrant_of_other {s : State} (h : arbiter s.port ≠ some .refresh) :
    exec .refreshGrant s = .next s :=
  exec_of_unchanged (c := .refreshGrant) rfl (if_neg h)

/-- A grant of a claimant that the arbiter does not choose changes nothing. -/
theorem exec_grant_of_not_chosen {c : Instr} {s : State} (hgrant : isGrant c = true)
    (h : arbiter s.port ≠ some (granted c)) : exec c s = .next s := by
  rcases (isGrant_eq_true c).1 hgrant with rfl | rfl | rfl | rfl | rfl | rfl
  · exact exec_lineWriteGrant_of_other fun hchosen => h hchosen.1
  · exact exec_tapReadGrant_of_other fun hchosen => h hchosen.1
  · exact exec_writeBurstGrant_of_other fun hchosen => h hchosen.1
  · exact exec_readBurstGrant_of_other fun hchosen => h hchosen.1
  · exact exec_fillBurstGrant_of_other fun hchosen => h hchosen.1
  · exact exec_refreshGrant_of_other h

theorem granted_ne_engine {c : Instr} (hgrant : isGrant c = true) (hline : c ≠ .lineWriteGrant)
    (htap : c ≠ .tapReadGrant) : granted c ≠ .engine := by
  rcases (isGrant_eq_true c).1 hgrant with rfl | rfl | rfl | rfl | rfl | rfl
  · exact absurd rfl hline
  · exact absurd rfl htap
  all_goals exact Claimant.noConfusion

theorem granted_ne_refresh {c : Instr} (hgrant : isGrant c = true) (hrefresh : c ≠ .refreshGrant) :
    granted c ≠ .refresh := by
  rcases (isGrant_eq_true c).1 hgrant with rfl | rfl | rfl | rfl | rfl | rfl
  case inr.inr.inr.inr.inr => exact absurd rfl hrefresh
  all_goals exact Claimant.noConfusion

/-- A chosen claimant is the only one that a grant serves (R123). -/
theorem exec_grant_of_other_chosen {c : Instr} {s : State} {x : Claimant} (hgrant : isGrant c = true)
    (hchosen : arbiter s.port = some x) (h : granted c ≠ x) : exec c s = .next s :=
  exec_grant_of_not_chosen hgrant fun hother => h (Option.some.inj (hother.symm.trans hchosen))

theorem grantWriteBurst_eq (address size : Nat) (s : State) : grantWriteBurst address size s = { s with
    tx := { s.tx with fifo := s.tx.fifo.drop size }
    port := { s.port with
      txClaim := none, op := some ⟨.writeBurst address (s.tx.fifo.take size), true⟩ }
    ev := if isWriting s.tx = true ∧ 32 < s.tx.fifo.length ∧ (s.tx.fifo.drop size).length ≤ 32 then
      raiseFlag .dataRequest s.ev else s.ev } := by
  have hcrossing : (isWriting s.tx && decide (64 - s.tx.fifo.length < 32) &&
      decide (32 ≤ 64 - (s.tx.fifo.drop size).length)) =
      decide (isWriting s.tx = true ∧ 32 < s.tx.fifo.length ∧ (s.tx.fifo.drop size).length ≤ 32) := by
    rw [Bool.eq_iff_iff]
    simp only [Bool.and_eq_true, decide_eq_true_eq, and_assoc]
    refine and_congr_right fun _ => ?_
    constructor <;> rintro ⟨_, _⟩ <;> constructor <;> omega
  rw [← raiseFlagIf_decide, ← hcrossing]
  rfl

/-- Settles O16: the arbiter's choice by rank, and each grant by that choice and the claim it names. -/
theorem grantsFollowRank : Obligations.GrantsFollowRank := by
  unfold Obligations.GrantsFollowRank
  intro s hheld
  refine ⟨fun c hgrant hbusy => ?busy, fun t cell p hclaim hfirst => ?tapRead,
    fun a p hclaim hfirst c hgrant hline htap => ?engine, fun hfirst => ⟨?refresh, fun c hgrant hrefresh => ?refreshOnly⟩,
    fun hfirst => ⟨fun address size hclaim => ?write, fun address size hclaim => ?read,
      fun address size v hclaim => ?fill⟩,
    fun h => ?noLineWrite, fun h => ?noTapRead, fun h => ?noRefresh, fun h => ?noWrite, fun h => ?noRead,
    fun h => ?noFill⟩
  case busy =>
    refine exec_grant_of_not_chosen hgrant fun hchosen => ?_
    rw [(arbiter_eq_some hchosen).1] at hbusy
    cases hbusy
  case tapRead =>
    rw [exec_of_released (c := .tapReadGrant) rfl hheld, arbiter_engine hclaim hfirst, hclaim]
    rfl
  case engine =>
    exact exec_grant_of_other_chosen hgrant (arbiter_engine hclaim hfirst) (granted_ne_engine hgrant hline htap)
  case refresh =>
    rw [exec_of_released (c := .refreshGrant) rfl hheld, if_pos (arbiter_refresh hfirst)]
    rfl
  case refreshOnly =>
    exact exec_grant_of_other_chosen hgrant (arbiter_refresh hfirst) (granted_ne_refresh hgrant hrefresh)
  case write =>
    rw [exec_of_released (c := .writeBurstGrant) rfl hheld, arbiter_transfer hclaim hfirst, hclaim,
      ← grantWriteBurst_eq]
  case read =>
    rw [exec_of_released (c := .readBurstGrant) rfl hheld, arbiter_transfer hclaim hfirst, hclaim]
    rfl
  case fill =>
    rw [exec_of_released (c := .fillBurstGrant) rfl hheld, arbiter_transfer hclaim hfirst, hclaim]
    rfl
  case noLineWrite =>
    exact exec_lineWriteGrant_of_other fun ⟨harb, l, cell, v, p, hclaim⟩ =>
      h l cell v p hclaim (engineIsFirst_of_arbiter harb hclaim)
  case noTapRead =>
    exact exec_tapReadGrant_of_other fun ⟨harb, t, cell, p, hclaim⟩ =>
      h t cell p hclaim (engineIsFirst_of_arbiter harb hclaim)
  case noRefresh => exact exec_refreshGrant_of_other fun harb => h (refreshIsFirst_of_arbiter harb)
  case noWrite =>
    exact exec_writeBurstGrant_of_other fun ⟨harb, address, size, hclaim⟩ =>
      h address size hclaim (transferIsFirst_of_arbiter harb)
  case noRead =>
    exact exec_readBurstGrant_of_other fun ⟨harb, address, size, hclaim⟩ =>
      h address size hclaim (transferIsFirst_of_arbiter harb)
  case noFill =>
    exact exec_fillBurstGrant_of_other fun ⟨harb, address, size, v, hclaim⟩ =>
      h address size v hclaim (transferIsFirst_of_arbiter harb)

/-! ### The DRAM (R105, R128, R131, R134) -/

theorem Dram.writeMany_epoch (d : Dram) (a : Nat) (cells : List Sample) : (d.writeMany a cells).epoch = d.epoch := by
  induction cells generalizing d a with
  | nil => rfl
  | cons v cells ih => exact (ih _ _).trans (Dram.write_epoch _ _ _)

theorem Dram.valueAt_writeMany_outside {d : Dram} {a b : Nat} {cells : List Sample}
    (h : b < a ∨ a + cells.length ≤ b) (k : Nat) : (d.writeMany a cells).valueAt k b = d.valueAt k b :=
  Dram.valueAt_of_find (d.writeMany_fitted a cells) (d.writeMany_epoch a cells)
    (d.writeMany_find_outside a b cells h) k

theorem Dram.valueAt_writeMany_inside {d : Dram} {a i : Nat} {cells : List Sample} {v : Sample}
    (hv : cells[i]? = some v) (hfitted : a + i < d.fitted) (k : Nat) :
    (d.writeMany a cells).valueAt k (a + i) = v :=
  Dram.valueAt_of_listed (by rw [Dram.writeMany_fitted]; exact hfitted)
    (d.writeMany_find_inside a i cells v hv hfitted) k

theorem Dram.readMany_getElem? {d : Dram} {a n i : Nat} (h : i < n) :
    (d.readMany a n)[i]? = some (d.valueAt (d.reads + i) (a + i)) := by
  simp [Dram.readMany, h]

/-- Settles O47: a write lists its cell and no other, and a loss empties the list. -/
theorem dramReadsLastWrite : Obligations.DramReadsLastWrite := by
  unfold Obligations.DramReadsLastWrite
  refine ⟨fun d a v k h => Dram.valueAt_write_same v h k, fun d a b v k h => Dram.valueAt_write_other v h k,
    fun s => ⟨rfl, fun t k a hlost hfitted => ?_⟩⟩
  cases hlost
  exact if_pos hfitted

/-! ### The completions of bursts (R108 to R115) -/

open Classical in
/-- The timer after an event that does not restart it, by the conditions of R115. -/
theorem settleTransfer_timer_awaited (b : State) :
    (settleTransfer b).tx.timer =
      if HostAwaited (settleTransfer b) then some (b.tx.timer.getD (fullPeriod b)) else none := by
  rw [settleTransfer_timer, timerPeriod, Nat.mul_comm]
  exact if_congr (timerRuns_eq_true (settleTransfer b)) rfl rfl

open Classical in
/-- The timer after an event that restarts it, by the conditions of R115. -/
theorem settleRestarted_timer_awaited (b : State) :
    (settleRestarted b).tx.timer = if HostAwaited (settleRestarted b) then some (fullPeriod b) else none := by
  rw [settleRestarted_timer, timerPeriod, Nat.mul_comm]
  exact if_congr (timerRuns_eq_true (settleRestarted b)) rfl rfl

theorem Transfer.burstWritten_eq (n : Nat) (x : Transfer) : x.burstWritten n = { x with
    written := x.written + n
    final := if x.final = none ∧ x.written + n = x.count then some .ok else x.final } := by
  simp only [Transfer.burstWritten, Option.isNone_iff_eq_none]

/-- The two completions that store cells are `completeStore` of the cells (R109, R114). -/
theorem exec_storing {s : State} {c : Instr} {address : Nat} {cells : List Sample} {owned : Bool}
    (hheld : s.held = false)
    (h : (c = .writeBurstCompletion ∧ s.port.op = some ⟨.writeBurst address cells, owned⟩) ∨
      (c = .fillBurstCompletion ∧ ∃ size v, cells = List.replicate size v ∧
        s.port.op = some ⟨.fillBurst address size v, owned⟩)) :
    exec c s = .next (completeStore owned address cells s) := by
  rcases h with ⟨rfl, hop⟩ | ⟨rfl, size, v, rfl, hop⟩
  · rw [exec_of_released (c := .writeBurstCompletion) rfl hheld, hop]
  · rw [exec_of_released (c := .fillBurstCompletion) rfl hheld, hop]

/-- Settles O17: the cells reach the DRAM, an owned burst is counted, and the claim and timer settle. -/
theorem storingBurstCompletes : Obligations.StoringBurstCompletes := by
  unfold Obligations.StoringBurstCompletes
  intro s c address cells owned hheld hop
  have houtside := fun k a h =>
    Dram.valueAt_writeMany_outside (d := s.dram) (a := address) (b := a) (cells := cells) h k
  have hinside := fun k i v hv hf =>
    Dram.valueAt_writeMany_inside (d := s.dram) (a := address) (i := i) (cells := cells) (v := v) hv hf k
  refine ⟨_, exec_storing hheld hop, ?_⟩
  cases owned
  case false =>
    exact ⟨rfl, houtside, hinside, settleTransfer_claim _ _ rfl, settleTransfer_timer_awaited _, fun _ => rfl,
      Bool.noConfusion⟩
  case true =>
    refine ⟨rfl, houtside, hinside, settleTransfer_claim _ _ rfl, settleTransfer_timer_awaited _,
      Bool.noConfusion, fun _ => ?_⟩
    simp only [← Transfer.burstWritten_eq]
    rfl

theorem exec_readBurstCompletion {s : State} {address size : Nat} {owned : Bool} (hheld : s.held = false)
    (hop : s.port.op = some ⟨.readBurst address size, owned⟩) :
    exec .readBurstCompletion s = .next (settleTransfer (if owned then
      fetchCells (s.dram.readMany address size) (countReads size (freePort s)) else countReads size (freePort s))) := by
  rw [exec_of_released (c := .readBurstCompletion) rfl hheld, hop]

theorem raiseFlagIf_decide_and (p q : Prop) [Decidable p] [Decidable q] (e : Event) (ev : EventUnit) :
    raiseFlagIf (decide p && decide q) e ev = if p ∧ q then raiseFlag e ev else ev := by
  rw [← Bool.decide_and, raiseFlagIf_decide]

/-- Settles O18: the cells enter the FIFO of a transfer that moves and owns the burst, and no other. -/
theorem readBurstFillsFifo : Obligations.ReadBurstFillsFifo := by
  unfold Obligations.ReadBurstFillsFifo
  intro s address size owned hheld hop
  refine ⟨_, exec_readBurstCompletion hheld hop, ?_⟩
  by_cases hmoves : owned = true ∧ ∃ x, s.tx.active = some x ∧ x.final = none
  case pos =>
    obtain ⟨rfl, x, hactive, hfinal⟩ := hmoves
    rw [if_pos rfl, fetchCells_of_moving _ (s := countReads size (freePort s)) hactive hfinal,
      Dram.readMany_length]
    refine ⟨rfl, settleTransfer_claim _ _ rfl, settleTransfer_timer_awaited _, fun y _ hy _ => ?_, ?_⟩
    · cases hactive.symm.trans hy
      refine ⟨rfl, ⟨s.dram.readMany address size, Dram.readMany_length _ _ _, rfl,
        fun i hi => Dram.readMany_getElem? hi⟩, ?_⟩
      exact raiseFlagIf_decide_and _ _ _ _
    · rintro (h | h | ⟨y, hy, hended⟩)
      · cases h
      · cases hactive.symm.trans h
      · cases hactive.symm.trans hy
        exact absurd hfinal hended
  case neg =>
    have hdiscarded : (if owned then fetchCells (s.dram.readMany address size) (countReads size (freePort s))
        else countReads size (freePort s)) = countReads size (freePort s) := by
      cases owned
      · rfl
      · exact fetchCells_of_ended (s := countReads size (freePort s)) _
          fun x hx hfinal => hmoves ⟨rfl, x, hx, hfinal⟩
    rw [hdiscarded]
    exact ⟨rfl, settleTransfer_claim _ _ rfl, settleTransfer_timer_awaited _,
      fun x howned hx hfinal => absurd ⟨howned, x, hx, hfinal⟩ hmoves, fun _ => ⟨rfl, rfl, rfl⟩⟩

/-! ### Refresh and the timers (R115, R116, R123, R125 to R127, R132) -/

/-- An expiry below a debt of 8 is owed; at 8 it is late (R125, R127). -/
theorem refreshExpires_eq (s : State) : refreshExpires s = if s.port.debt < 8 then
      { s with port := { s.port with refreshTimer := some s.port.refint.toNat, debt := s.port.debt + 1 } }
    else { s with
      port := { s.port with
        refreshTimer := some s.port.refint.toNat
        late := if s.port.late = 255#8 then 255#8 else s.port.late + 1 }
      ev := raiseFlag .refreshLate s.ev } := by
  by_cases hdebt : s.port.debt < 8
  · have hlate : ¬ 8 ≤ s.port.debt := by omega
    simp [refreshExpires, hdebt, hlate]
  · have hlate : 8 ≤ s.port.debt := by omega
    rw [if_neg hdebt, ← satSucc_of_largest s.port.late (by decide)]
    simp [refreshExpires, hdebt, hlate]

/-- Settles O19: each row by the operation in flight or by its timer. -/
theorem refreshCompletionAndExpiries : Obligations.RefreshCompletionAndExpiries := by
  unfold Obligations.RefreshCompletionAndExpiries
  intro s hheld
  refine ⟨fun owned hop => ?completion, fun left htimer => ?refreshExpiry, fun htimer => ?refreshStopped,
    fun left x htimer hactive hfinal => ?starvationExpiry, fun htimer => ?starvationStopped⟩
  case completion =>
    rw [exec_of_released (c := .refreshCompletion) rfl hheld, hop]
    cases s.port.engineClaim <;> rfl
  case refreshExpiry => rw [exec_refreshTimerExpiry_of_running hheld htimer, refreshExpires_eq]
  case refreshStopped =>
    exact exec_of_unchanged (c := .refreshTimerExpiry) rfl (if_neg (by rw [htimer]; exact Bool.false_ne_true))
  case starvationExpiry =>
    rw [exec_starvationTimerExpiry_of_running hheld htimer, starvationExpires, hactive]
    simp only [hfinal, Option.isNone_none, if_true]
    rfl
  case starvationStopped =>
    exact exec_of_unchanged (c := .starvationTimerExpiry) rfl (if_neg (by rw [htimer]; exact Bool.false_ne_true))

theorem exec_lowHalfRead_of_released {s : State} (hheld : s.held = false) (off : Offset) :
    exec (.lowHalfRead off) s = .next (readWindow off s) :=
  congrArg Host.Outcome.next (if_neg (by rw [hheld]; exact Bool.false_ne_true))

/-- A read of a location that is no half of a pair returns what stands there (R136, R148). -/
theorem exec_lowHalfRead_plain {s : State} {off : Offset} (hheld : s.held = false) (hdata : off.toNat ≠ 0x1E)
    (hpair : latchedPair off.toNat s = none) (hhigh : isLatchedHigh off.toNat = false) :
    exec (.lowHalfRead off) s = .next { s with host := { s.host with dataOut := plainRead off.toNat s } } := by
  rw [exec_lowHalfRead_of_released hheld, readWindow, if_neg hdata, hpair, hhigh]
  rfl

/-- Settles O20: the write restarts the timer under the conditions of R115, and the halfword is read back. -/
theorem txtimeoutStartsOrStopsTimer : Obligations.TxtimeoutStartsOrStopsTimer := by
  unfold Obligations.TxtimeoutStartsOrStopsTimer
  intro s v hheld
  refine ⟨_, exec_of_released (c := .txtimeout v) rfl hheld, ?_, ?_⟩
  · have htimer : timerRestarted s.tx { s.port with txtimeout := v } =
        if (isWriting s.tx = true ∨ isReading s.tx = true) ∧ s.port.txClaim = none ∧
          burstInFlight s.port = false ∧ v ≠ 0 then some (v.toNat * 64) else none := by
      refine if_congr ?_ rfl rfl
      simp [timerRuns, burstInFlight, and_assoc]
    rw [setTimeout, htimer]
  · exact exec_lowHalfRead_plain hheld (by decide) rfl rfl

end Sys2Proof.Machine
end

section
/-! The head of the queue: cancelled heads, MARKs, table requests and handovers, and the end of a transfer. -/

namespace Sys2Proof.Machine

/-! ### When no head is taken (R73, R75, R76, R83, R85, R91) -/

theorem isApplication_eq_true (c : Instr) : isApplication c = true ↔
    c = .lineDefine ∨ c = .lineRelease ∨ c = .lineStart ∨ c = .lineFreeze ∨ c = .lineHalt ∨ c = .tapAttach ∨
      c = .tapDetach ∨ c = .tapRetarget ∨ c = .tapGain := by
  simp [isApplication]

theorem takesRingSlot_eq_true (c : Instr) : takesRingSlot c = true ↔
    isApplication c = true ∨ (c = .blockWrite ∨ c = .blockRead ∨ c = .blockFill) ∨ c = .mark ∨
      c = .cancelledHeadCompletion ∨ c = .transferCompletion := by
  simp only [takesRingSlot, isApplication, List.mem_cons, List.not_mem_nil, or_false, decide_eq_true_eq]
  tauto

/-- No table request is applied while its event is not enabled (R76). -/
theorem exec_application_of_disabled {c : Instr} {s : State} (hc : isApplication c = true)
    (h : ¬ applicationEnabled s = true) : exec c s = .next s := by
  rcases (isApplication_eq_true c).1 hc with rfl | rfl | rfl | rfl | rfl | rfl | rfl | rfl | rfl
  all_goals
    refine exec_of_unchanged (f := fun s => _) rfl ?_
    split
    · exact if_neg h
    · rfl

/-- No transfer request is handed over while its event is not enabled (R83). -/
theorem exec_handover_of_disabled {c : Instr} {s : State} (hc : c = .blockWrite ∨ c = .blockRead ∨ c = .blockFill)
    (h : ¬ handoverEnabled s = true) : exec c s = .next s := by
  rcases hc with rfl | rfl | rfl
  all_goals
    refine exec_of_unchanged (f := fun s => _) rfl ?_
    split
    · exact if_neg h
    · rfl

theorem exec_mark_of_full {s : State} (h : ¬ ringFree s = true) : exec .mark s = .next s := by
  refine exec_of_unchanged (c := .mark) rfl ?_
  split
  · split
    · exact if_neg h
    · rfl
  · rfl

theorem exec_cancelledHeadCompletion_of_not {s : State}
    (h : ∀ e rest, s.req.queue = e :: rest → ¬ (e.cancelled && ringFree s) = true) :
    exec .cancelledHeadCompletion s = .next s := by
  refine exec_of_unchanged (c := .cancelledHeadCompletion) rfl ?_
  split
  · rfl
  · next e rest hqueue => exact if_neg (h e rest hqueue)

theorem exec_transferCompletion_of_not {s : State}
    (h : ∀ x f, s.tx.active = some x → x.final = some f → ¬ (ringFree s && !ownBurstInFlight s.port) = true) :
    exec .transferCompletion s = .next s := by
  refine exec_of_unchanged (c := .transferCompletion) rfl ?_
  split
  · rfl
  · next x hx =>
    split
    · rfl
    · next f hf => exact if_neg (h x f hx hf)

/-- Only the event of its kind takes an open head, and none takes another (R73). -/
theorem exec_of_other_head {c : Instr} {s : State} (hc : takesRingSlot c = true) (hcompletion : c ≠ .transferCompletion)
    (hcancelled : c ≠ .cancelledHeadCompletion) (h : ∀ q tag, openHead s = some (q, tag) → c ≠ headEvent q) :
    exec c s = .next s := by
  rcases (takesRingSlot_eq_true c).1 hc with hc | hc | rfl | rfl | rfl
  · rcases (isApplication_eq_true c).1 hc with rfl | rfl | rfl | rfl | rfl | rfl | rfl | rfl | rfl
    all_goals
      refine exec_of_unchanged (f := fun s => _) rfl ?_
      split
      · next hhead => exact absurd rfl (h _ _ hhead)
      · rfl
  · rcases hc with rfl | rfl | rfl
    all_goals
      refine exec_of_unchanged (f := fun s => _) rfl ?_
      split
      · next hhead => exact absurd rfl (h _ _ hhead)
      · rfl
  · refine exec_of_unchanged (c := .mark) rfl ?_
    split
    · next hhead => exact absurd rfl (h _ _ hhead)
    · rfl
  · exact absurd rfl hcancelled
  · exact absurd rfl hcompletion

theorem openHead_eq_none {s : State} (h : ∀ e rest, s.req.queue = e :: rest → e.cancelled = true) :
    openHead s = none := by
  unfold openHead
  split
  · rfl
  · next e rest hqueue => rw [if_pos (h e rest hqueue)]

/-- Settles O22: each row by its class: a table request, a handover, the MARK, and the two completions. -/
theorem headWaitsForSlotAndService : Obligations.HeadWaitsForSlotAndService := by
  unfold Obligations.HeadWaitsForSlotAndService
  intro c s
  refine ⟨fun hc hring => ?full, fun hc hservice => ?service, fun hc hbusy => ?busy, fun hc hcompletion =>
    ⟨fun hempty => ?empty, fun e rest hqueue => ⟨fun hmarked hother => ?marked, fun hopen hother => ?opened⟩⟩⟩
  case full =>
    have hfree : ¬ ringFree s = true := by rw [ringFree_eq_true]; omega
    rcases (takesRingSlot_eq_true c).1 hc with hc | hc | rfl | rfl | rfl
    · exact exec_application_of_disabled hc fun hen => by
        have := ((applicationEnabled_eq_true s).1 hen).2
        omega
    · exact exec_handover_of_disabled hc fun hen => by
        have := ((handoverEnabled_eq_true s).1 hen).2
        omega
    · exact exec_mark_of_full hfree
    · exact exec_cancelledHeadCompletion_of_not fun e rest _ hen => hfree ((Bool.and_eq_true _ _ ▸ hen).2)
    · exact exec_transferCompletion_of_not fun x f _ _ hen => hfree ((Bool.and_eq_true _ _ ▸ hen).1)
  case service =>
    refine exec_application_of_disabled hc fun hen => ?_
    have hout := (inService_eq_false s).2 ((applicationEnabled_eq_true s).1 hen).1
    rw [hservice] at hout
    cases hout
  case busy => exact exec_handover_of_disabled hc fun hen => hbusy ((handoverEnabled_eq_true s).1 hen).1
  case empty =>
    by_cases hcancelled : c = .cancelledHeadCompletion
    · subst hcancelled
      exact exec_cancelledHeadCompletion_of_not fun e rest hqueue => by rw [hempty] at hqueue; cases hqueue
    · refine exec_of_other_head hc hcompletion hcancelled fun q tag hhead => ?_
      rw [openHead_eq_none fun e rest hqueue => by rw [hempty] at hqueue; cases hqueue] at hhead
      cases hhead
  case marked =>
    refine exec_of_other_head hc hcompletion hother fun q tag hhead => ?_
    rw [openHead_eq_none fun e' rest' hqueue' => by cases hqueue.symm.trans hqueue'; exact hmarked] at hhead
    cases hhead
  case opened =>
    by_cases hcancelled : c = .cancelledHeadCompletion
    · subst hcancelled
      refine exec_cancelledHeadCompletion_of_not fun e' rest' hqueue' => ?_
      cases hqueue.symm.trans hqueue'
      rw [hopen]
      exact Bool.false_ne_true
    · refine exec_of_other_head hc hcompletion hcancelled fun q tag hhead => ?_
      obtain ⟨rest', hqueue'⟩ := (openHead_eq_some s q tag).1 hhead
      cases hqueue.symm.trans hqueue'
      exact hother

/-! ### Cancelled heads and MARKs (R73 to R75, R79 to R82) -/

/-- A DUE MARK at the head leaves with its status and aux part (R82). -/
theorem exec_mark_of_due {s : State} {tag : Tag} {status : Status} {aux : Aux} (hheld : s.held = false)
    (hhead : openHead s = some (.mark, tag)) (hfree : ringFree s = true)
    (hdue : dueMark s.req.mark = some (status, aux)) :
    exec .mark s = .next (completeHead ⟨tag, .mark, status, aux⟩ s) := by
  rw [exec_of_released (c := .mark) rfl hheld, hhead]
  simp only [hdue, hfree, if_true]

theorem exec_mark_of_not_due {s : State} (hdue : dueMark s.req.mark = none) : exec .mark s = .next s := by
  refine exec_of_unchanged (c := .mark) rfl ?_
  split
  · rw [hdue]
  · rfl

/-- Settles O21: the head by its mark, and a MARK by its mark state. -/
theorem cancelledHeadAndMarkLeave : Obligations.CancelledHeadAndMarkLeave := by
  unfold Obligations.CancelledHeadAndMarkLeave
  intro s e rest hheld hqueue hring
  have hfree : ringFree s = true := (ringFree_eq_true s).2 hring
  refine ⟨fun r => ?record, fun hcancelled => ?cancelled, fun hopen hmark => ?mark⟩
  case record =>
    rw [completeHead, pushRecord, removeHead, hqueue, List.tail_cons]
    cases rest <;> rfl
  case cancelled =>
    rw [exec_of_released (c := .cancelledHeadCompletion) rfl hheld, hqueue]
    simp only [hcancelled, hfree, Bool.and_self, if_true]
  case mark =>
    obtain ⟨request, tag, cancelled⟩ := e
    obtain rfl : cancelled = false := hopen
    obtain rfl : request = .mark := hmark
    have hhead : openHead s = some (.mark, tag) := (openHead_eq_some s _ _).2 ⟨rest, hqueue⟩
    exact ⟨fun n hdue => exec_mark_of_due hheld hhead hfree (by rw [hdue]; rfl),
      fun hdue => exec_mark_of_due hheld hhead hfree (by rw [hdue]; rfl),
      fun harm => exec_mark_of_not_due (by rw [harm]; rfl), fun n harm => exec_mark_of_not_due (by rw [harm]; rfl)⟩

/-! ### The table requests at the head -/

/-- An uncancelled table request at the head is applied by its checks and change, while the engine is STOPPED
or WAITING and a ring slot is free (R76). -/
theorem exec_headEvent_of_head {s : State} {q : Request} {tag : Tag} {rest : List Entry}
    (htable : isApplication (headEvent q) = true) (hheld : s.held = false)
    (hqueue : s.req.queue = ⟨q, tag, false⟩ :: rest)
    (heng : s.eng.state = .stopped ∨ s.eng.state = .waiting) (hring : s.ring.length < 16) :
    exec (headEvent q) s = .next (finishApplication (requestKind q) tag (tableChange q s) s) := by
  have hhead : openHead s = some (q, tag) := (openHead_eq_some s _ _).2 ⟨rest, hqueue⟩
  have hen : applicationEnabled s = true := (applicationEnabled_eq_true s).2 ⟨heng, hring⟩
  cases q
  case mark => cases htable
  case blockWrite => cases htable
  case blockRead => cases htable
  case blockFill => cases htable
  all_goals
    refine (exec_of_released (f := fun s => _) rfl hheld).trans (congrArg Host.Outcome.next ?_)
    rw [hhead]
    exact if_pos hen

theorem finishApplication_ite (kind : Kind) (tag : Tag) (p : Prop) [Decidable p] (a b : Except Status State)
    (s : State) : finishApplication kind tag (if p then a else b) s =
      if p then finishApplication kind tag a s else finishApplication kind tag b s :=
  apply_ite (fun result => finishApplication kind tag result s) p a b

theorem overlapsOtherLine_eq_true (l : Fin 32) (base n : Nat) (s : State) : overlapsOtherLine l base n s = true ↔
    ∃ k : Fin 32, k ≠ l ∧ ∃ q ∈ s.lines[k], rangesOverlap base n q.base q.length = true := by
  rw [overlapsOtherLine, someLine_eq_true]
  refine exists_congr fun k => ?_
  simp only [Bool.and_eq_true, decide_eq_true_eq]
  tauto

theorem tapBeyond_eq_true (l : Fin 32) (n : Nat) (s : State) : tapBeyond l n s = true ↔
    ∃ t : Fin 128, ∃ r ∈ s.taps[t], r.line = l ∧ (n ≤ r.current ∨ n ≤ r.target) := by
  rw [tapBeyond, someTap_eq_true]
  simp only [Bool.and_eq_true, Bool.or_eq_true, decide_eq_true_eq]

/-- Settles O23: the checks of `defineLine` in their order. -/
theorem lineDefineChecksThenDefines : Obligations.LineDefineChecksThenDefines := by
  unfold Obligations.LineDefineChecksThenDefines
  intro s l base n src tag rest hheld hqueue heng hring
  refine (exec_headEvent_of_head (q := .lineDefine l base n src) rfl hheld hqueue heng hring).trans
    (congrArg Host.Outcome.next ?_)
  rw [tableChange, defineLine]
  simp only [finishApplication_ite, finishApplication_ok, finishApplication_error]
  refine if_congr ?_ rfl (if_congr Iff.rfl rfl (if_congr (overlapsOtherLine_eq_true ..) rfl (if_congr ?_ rfl rfl)))
  · simp [Option.any_eq_true]
  · rw [Bool.and_eq_true, tapBeyond_eq_true]

/-- Settles O24: the greater of the two first cells is the common cell. -/
theorem overlapIsACommonCell : Obligations.OverlapIsACommonCell := by
  unfold Obligations.OverlapIsACommonCell
  intro b1 n1 b2 n2 hn1 hn2
  simp only [rangesOverlap, Bool.and_eq_true, decide_eq_true_eq, Bool.and_eq_false_iff, decide_eq_false_iff_not]
  refine ⟨⟨fun ⟨h1, h2⟩ => ⟨max b1 b2, by omega⟩, fun ⟨c, hc1, hc2⟩ => by omega⟩, by omega, by omega⟩

/-- Settles O25: each request on an undefined line and by the state of a defined one. -/
theorem lineReleaseFreezeHalt : Obligations.LineReleaseFreezeHalt := by
  unfold Obligations.LineReleaseFreezeHalt
  intro s l tag rest hheld heng hring
  refine ⟨fun hqueue => ?release, fun hqueue => ?freeze, fun hqueue => ?halt⟩
  case release =>
    refine (exec_headEvent_of_head (q := .lineRelease l) rfl hheld hqueue heng hring).trans
      (congrArg Host.Outcome.next ?_)
    rw [tableChange, releaseLine]
    cases hl : s.lines[l] with
    | none => simp [requestKind]
    | some r =>
      simp only [finishApplication_ite, finishApplication_ok, finishApplication_error]
      exact if_congr (by simp) rfl (if_congr (tapCount_ne_zero s l) rfl rfl)
  case freeze =>
    refine (exec_headEvent_of_head (q := .lineFreeze l) rfl hheld hqueue heng hring).trans
      (congrArg Host.Outcome.next ?_)
    rw [tableChange, freezeLine]
    cases hl : s.lines[l] with
    | none => simp [requestKind]
    | some r =>
      simp only [finishApplication_ite, finishApplication_ok, finishApplication_error]
      exact if_congr (by simp) rfl rfl
  case halt =>
    refine (exec_headEvent_of_head (q := .lineHalt l) rfl hheld hqueue heng hring).trans
      (congrArg Host.Outcome.next ?_)
    rw [tableChange, haltLine]
    cases hl : s.lines[l] with
    | none => simp [requestKind]
    | some r =>
      simp only [finishApplication_ite, finishApplication_ok, finishApplication_error, ← ite_not (r.mode = .idle)]
      exact if_congr (by simp) rfl rfl

/-- The change of TAP_DETACH on an attached tap (R27, R32). -/
theorem detachTap_of_attached {t : Fin 128} {s : State} {r : TapRec} (h : s.taps[t] = some r) :
    detachTap t s = .ok { s with
      taps := s.taps.set t none
      glideCount := if r.gliding then s.glideCount - 1 else s.glideCount
      ev := if r.gliding = true ∧ s.glideCount = 1 then raiseFlag .glidesSettled s.ev else s.ev } := by
  rw [detachTap, h]
  cases hgliding : r.gliding with
  | false => simp [hgliding, setTap]
  | true =>
    simp only [hgliding, if_true, true_and, ← raiseFlagIf_decide]
    rfl

/-- Settles O27: each request on a FREE and on an attached tap. -/
theorem tapAttachDetachGain : Obligations.TapAttachDetachGain := by
  unfold Obligations.TapAttachDetachGain
  intro s t tag rest hheld heng hring
  refine ⟨fun l delay b g hqueue => ?attach, fun hqueue => ?detach, fun g b hqueue => ?gain⟩
  case attach =>
    refine (exec_headEvent_of_head (q := .tapAttach t l delay b g) rfl hheld hqueue heng hring).trans
      (congrArg Host.Outcome.next ?_)
    rw [tableChange, attachTap]
    cases hl : s.lines[l] with
    | none => simp [requestKind]
    | some r =>
      simp only [finishApplication_ite, finishApplication_ok, finishApplication_error]
      exact if_congr (by simp) rfl (if_congr (by simp) rfl rfl)
  case detach =>
    rw [show exec .tapDetach s = _ from
      exec_headEvent_of_head (q := .tapDetach t) rfl hheld hqueue heng hring, tableChange]
    refine ⟨fun hfree => ?_, fun r hr => ?_⟩
    · rw [detachTap, hfree]
      rfl
    · rw [detachTap_of_attached hr]
      rfl
  case gain =>
    rw [show exec .tapGain s = _ from
      exec_headEvent_of_head (q := .tapGain t g b) rfl hheld hqueue heng hring, tableChange, gainTap]
    refine ⟨fun hfree => ?_, fun r hr => ?_⟩
    · rw [hfree]
      rfl
    · rw [hr]
      rfl

/-! ### Transfers at the head (R83, R84, R90, R97, R117) -/

/-- A transfer request at the head is handed over while the unit is IDLE and a ring slot is free (R83). -/
theorem exec_handover_of_head {s : State} {c : Instr} {q : Request} {k : TransferKind} {address n : BitVec 32}
    {tag : Tag} {rest : List Entry} (hheld : s.held = false) (hqueue : s.req.queue = ⟨q, tag, false⟩ :: rest)
    (hrow : (c = .blockWrite ∧ q = .blockWrite address n ∧ k = .write) ∨
      (c = .blockRead ∧ q = .blockRead address n ∧ k = .read) ∨
      (c = .blockFill ∧ ∃ v, q = .blockFill address n v ∧ k = .fill v))
    (hidle : s.tx.active = none) (hring : s.ring.length < 16) :
    requestKind q = transferRequestKind k ∧ exec c s = .next (handOver tag k address.toNat n.toNat s) := by
  have hhead : openHead s = some (q, tag) := (openHead_eq_some s _ _).2 ⟨rest, hqueue⟩
  have hen : handoverEnabled s = true := (handoverEnabled_eq_true s).2 ⟨hidle, hring⟩
  rcases hrow with ⟨rfl, rfl, rfl⟩ | ⟨rfl, rfl, rfl⟩ | ⟨rfl, v, rfl, rfl⟩
  all_goals
    refine ⟨rfl, (exec_of_released (f := fun s => _) rfl hheld).trans (congrArg Host.Outcome.next ?_)⟩
    rw [hhead]
    exact if_pos hen

/-- The handover's checks in their order (R83). -/
theorem handoverRefusal_of_beyond {address count : Nat} {s : State}
    (h : memoryCells s.port.memsize < address + count) : handoverRefusal address count s = some .range := by
  rw [handoverRefusal, if_pos h]

theorem handoverRefusal_of_within {address count : Nat} {s : State}
    (h : ¬ memoryCells s.port.memsize < address + count) [Decidable (∃ l : Fin 32, ∃ r ∈ s.lines[l],
      r.mode = .running ∧ rangesOverlap address count r.base r.length = true)] :
    handoverRefusal address count s = if ∃ l : Fin 32, ∃ r ∈ s.lines[l],
      r.mode = .running ∧ rangesOverlap address count r.base r.length = true then some .regionBusy else none := by
  rw [handoverRefusal, if_neg h]
  refine if_congr ?_ rfl rfl
  rw [someLine_eq_true]
  simp only [Bool.and_eq_true, decide_eq_true_eq]

/-- The first burst of a transfer accepted on an empty FIFO (R108, R111, R114). -/
theorem nextBurst_of_accepted (tag : Tag) (k : TransferKind) (address : Nat) {n : Nat} (timer : Option Nat)
    (hn : 1 ≤ n) : nextBurst ⟨some ⟨tag, k, address, n, 0, 0, 0, 0, none⟩, [], timer⟩ =
      if k = .write then none else some ⟨k, address, min 16 n⟩ := by
  cases k with
  | write => simp [nextBurst]
  | read =>
    simp only [nextBurst, Option.isSome_none, Bool.false_eq_true, if_false, reduceCtorEq, List.length_nil,
      Nat.sub_zero, Nat.add_zero]
    rw [if_pos (by omega)]
  | fill v =>
    simp only [nextBurst, Option.isSome_none, Bool.false_eq_true, if_false, reduceCtorEq, Nat.sub_zero, Nat.add_zero]
    rw [if_pos (by omega)]

/-- What an accepted transfer leaves but for its claim and its timer (R84). -/
theorem acceptTransfer_frame {s : State} {e : Entry} {rest : List Entry} (tag : Tag) (k : TransferKind)
    (address count : Nat) (hqueue : s.req.queue = e :: rest) : acceptTransfer tag k address count s = { s with
      req := { s.req with queue := rest, mark := markOfHead s.eng.state rest }
      tx := ⟨some ⟨tag, k, address, count, 0, 0, 0, 0, none⟩, s.tx.fifo,
        (acceptTransfer tag k address count s).tx.timer⟩
      port := { s.port with txClaim := (acceptTransfer tag k address count s).port.txClaim }
      ev := if k = .write then raiseFlag .dataRequest s.ev else s.ev } := by
  rw [← raiseFlagIf_decide]
  simp only [acceptTransfer, removeHead, hqueue, List.tail_cons]
  rfl

/-- The first claim of a transfer that finds the FIFO empty and the port without a burst (R108, R111, R114). -/
theorem acceptTransfer_claim {s : State} (tag : Tag) (k : TransferKind) (address : Nat) {count : Nat}
    (hfifo : s.tx.fifo = []) (hclaim : s.port.txClaim = none) (hburst : burstInFlight s.port = false)
    (hcount : 1 ≤ count) : (acceptTransfer tag k address count s).port.txClaim =
      if k = .write then none else some ⟨k, address, min 16 count⟩ := by
  rw [← nextBurst_of_accepted tag k address s.tx.timer hcount, ← hfifo]
  exact if_pos (by
    change (s.port.txClaim.isNone && !burstInFlight s.port) = true
    rw [hclaim, hburst]
    rfl)

/-- The timer of such a transfer: a write waits for the host at once (R115). -/
theorem acceptTransfer_timer {s : State} (tag : Tag) (k : TransferKind) (address : Nat) {count : Nat}
    (hfifo : s.tx.fifo = []) (htimer : s.tx.timer = none) (hclaim : s.port.txClaim = none)
    (hburst : burstInFlight s.port = false) (hcount : 1 ≤ count) :
    (acceptTransfer tag k address count s).tx.timer =
      if k = .write ∧ s.port.txtimeout ≠ 0 then some (s.port.txtimeout.toNat * 64) else none := by
  have hfirst := acceptTransfer_claim tag k address hfifo hclaim hburst hcount
  have hperiod : s.tx.timer.getD (timerPeriod s.port) = s.port.txtimeout.toNat * 64 := by rw [htimer]; rfl
  rw [← hperiod]
  have hactive : (acceptTransfer tag k address count s).tx.active =
      some ⟨tag, k, address, count, 0, 0, 0, 0, none⟩ := rfl
  refine if_congr ((timerRuns_eq_true (acceptTransfer tag k address count s)).trans ?_) rfl rfl
  have hport : burstInFlight (acceptTransfer tag k address count s).port = false := hburst
  have htimeout : (acceptTransfer tag k address count s).port.txtimeout = s.port.txtimeout := rfl
  rw [HostAwaited, hactive, hfirst, hport, htimeout]
  cases k <;> simp

/-- Settles O29: the checks of the handover, and the accepted transfer with its first claim and timer. -/
theorem handoverRefusesOrAccepts : Obligations.HandoverRefusesOrAccepts := by
  unfold Obligations.HandoverRefusesOrAccepts
  intro s c q k address n tag rest hheld hqueue hrow hidle hring
  obtain ⟨hkind, hexec⟩ := exec_handover_of_head hheld hqueue hrow hidle hring
  rw [hexec, handOver, hkind]
  by_cases hbeyond : 1048576 * 2 ^ s.port.memsize.toNat < address.toNat + n.toNat
  · rw [if_pos hbeyond, handoverRefusal_of_beyond hbeyond]
  by_cases hbusy : ∃ l : Fin 32, ∃ r ∈ s.lines[l], r.mode = .running ∧
      rangesOverlap address.toNat n.toNat r.base r.length = true
  · rw [if_neg hbeyond, if_pos hbusy, handoverRefusal_of_within hbeyond, if_pos hbusy]
  · rw [if_neg hbeyond, if_neg hbusy, handoverRefusal_of_within hbeyond, if_neg hbusy]
    exact ⟨_, rfl, acceptTransfer_frame tag k _ _ hqueue, fun hfifo htimer hclaim hburst hn =>
      ⟨acceptTransfer_claim tag k _ hfifo hclaim hburst hn,
        acceptTransfer_timer tag k _ hfifo htimer hclaim hburst hn⟩⟩

/-- Settles O30: the record of a finished transfer, and the two reasons to wait. -/
theorem transferWritesItsRecord : Obligations.TransferWritesItsRecord := by
  unfold Obligations.TransferWritesItsRecord
  intro s x hheld hactive
  refine ⟨fun f hfinal hring hown => ?record, fun hwait => ?waits⟩
  case record =>
    rw [exec_of_released (c := .transferCompletion) rfl hheld, hactive]
    simp only [hfinal, (ringFree_eq_true s).2 hring, hown, Bool.not_false, Bool.and_self, if_true]
    cases hkind : x.kind <;> cases f <;> simp [pushRecord, cellsDone, hkind, transferRequestKind, finalStatus]
  case waits =>
    refine exec_transferCompletion_of_not fun y f hy hfinal hen => ?_
    cases hactive.symm.trans hy
    rcases hwait with hmoves | hown
    · rw [hmoves] at hfinal
      cases hfinal
    · rw [hown, Bool.not_true, Bool.and_false] at hen
      cases hen

end Sys2Proof.Machine
end

section
/-! Submission, cancellation, the ring, and the data port. -/

namespace Sys2Proof.Machine

/-! ### The submission checks (R68 to R71) -/

theorem kindOfCode_eq_none (n : Nat) : kindOfCode n = none ↔ n = 0 ∨ 13 < n := by
  constructor
  · intro h
    by_contra hcode
    have hlow : 1 ≤ n := by omega
    have hhigh : n ≤ 13 := by omega
    interval_cases n <;> cases h
  · intro h
    unfold kindOfCode
    split
    case h_14 => rfl
    all_goals omega

theorem kindCode_of_kindOfCode {n : Nat} {k : Kind} (h : kindOfCode n = some k) : kindCode k = n := by
  unfold kindOfCode at h
  split at h
  case h_14 => cases h
  all_goals cases h; rfl

/-- Checks made one after the other succeed when each does. -/
theorem isSome_bind_iff {α β : Type} {x : Option α} {f : α → Option β} {p : Prop}
    (h : ∀ a, (f a).isSome = true ↔ p) : (x >>= f).isSome = true ↔ x.isSome = true ∧ p := by
  cases x with
  | none => simp
  | some a => simpa using h a

theorem isSome_some_iff {α : Type} (a : α) : (some a).isSome = true ↔ True := by simp

theorem parseFin_isSome (n : Nat) (h : Half) : (parseFin n h).isSome = true ↔ h.toNat < n := by
  unfold parseFin
  split <;> simp <;> omega

theorem parseLength_isSome (w : BitVec 32) : (parseLength w).isSome = true ↔ 16 ≤ w.toNat ∧ w.toNat ≤ 1048576 := by
  unfold parseLength
  split <;> simp <;> omega

theorem parseCount_isSome (w : BitVec 32) : (parseCount w).isSome = true ↔ 1 ≤ w.toNat ∧ w.toNat ≤ 65536 := by
  unfold parseCount
  split <;> simp <;> omega

theorem parseStep_isSome (h : Half) : (parseStep h).isSome = true ↔ h.toNat ≤ 255 := by
  unfold parseStep
  split <;> simp <;> omega

theorem parseMode_isSome (h : Half) : (parseMode h).isSome = true ↔ h.toNat ≤ 1 := by
  unfold parseMode
  split_ifs with h0 h1
  · simp [h0]
  · simp [h1]
  · have hne0 : h.toNat ≠ 0 := fun hz => h0 (BitVec.eq_of_toNat_eq hz)
    have hne1 : h.toNat ≠ 1 := fun hz => h1 (BitVec.eq_of_toNat_eq hz)
    simp only [Option.isSome_none, Bool.false_eq_true, false_iff]
    omega

theorem parseSource_isSome (h : Half) :
    (parseSource h).isSome = true ↔ h.toNat / 256 ≤ 1 ∧ h.toNat % 256 ≤ 15 := by
  unfold parseSource
  split_ifs <;> simp only [Option.isSome_some, Option.isSome_none, Bool.false_eq_true, false_iff, true_iff] <;> omega

/-- The parser admits the fields that R70 admits. -/
theorem parseArgs_isSome (a : Vector Half 6) (k : Kind) :
    (parseArgs a k).isSome = true ↔ fieldsAdmitted (kindCode k) a := by
  cases k
  case lineDefine =>
    refine (isSome_bind_iff fun l => isSome_bind_iff fun n => isSome_bind_iff fun src => isSome_some_iff _).trans ?_
    simp only [parseFin_isSome, parseLength_isSome, parseSource_isSome, joinHalves_toNat, fieldsAdmitted,
      kindCode, and_true]
    omega
  case tapAttach =>
    refine (isSome_bind_iff fun t => isSome_bind_iff fun l => isSome_bind_iff fun b => isSome_some_iff _).trans ?_
    simp only [parseFin_isSome, fieldsAdmitted, kindCode, and_true]
    omega
  case lineStart =>
    refine (isSome_bind_iff fun l => isSome_bind_iff fun m => isSome_some_iff _).trans ?_
    simp only [parseFin_isSome, parseMode_isSome, fieldsAdmitted, kindCode, and_true]
    omega
  case tapRetarget =>
    refine (isSome_bind_iff fun t => isSome_bind_iff fun k => isSome_some_iff _).trans ?_
    simp only [parseFin_isSome, parseStep_isSome, fieldsAdmitted, kindCode, and_true]
    omega
  case tapGain =>
    refine (isSome_bind_iff fun t => isSome_bind_iff fun b => isSome_some_iff _).trans ?_
    simp only [parseFin_isSome, fieldsAdmitted, kindCode, and_true]
    omega
  case mark => exact isSome_some_iff _
  case blockWrite | blockRead | blockFill =>
    refine (isSome_bind_iff fun n => isSome_some_iff _).trans ?_
    simp only [parseCount_isSome, joinHalves_toNat, fieldsAdmitted, kindCode, and_true]
  all_goals
    refine (isSome_bind_iff fun x => isSome_some_iff _).trans ?_
    simp only [parseFin_isSome, fieldsAdmitted, kindCode, and_true]
    omega

theorem parseSource_carries {h : Half} {src : Source} : parseSource h = some src →
    h.toNat = match src with | .input i => i.val | .bus b => 256 + b.val := by
  unfold parseSource
  split_ifs with hi h0 h1 <;> rintro ⟨⟩ <;> simp only [] <;> omega

theorem parseMode_carries {h : Half} {m : StartMode} : parseMode h = some m →
    h.toNat = match m with | .fresh => 0 | .keep => 1 := by
  unfold parseMode
  split_ifs with h0 h1 <;> rintro ⟨⟩
  · rw [h0]
    rfl
  · rw [h1]
    rfl

theorem parseStep_carries {h : Half} {k : Nat} : parseStep h = some k → k = h.toNat := by
  unfold parseStep
  split_ifs <;> rintro ⟨⟩
  rfl

/-- A request that the parser admits carries the staged arguments (R68). -/
theorem parseArgs_carries {a : Vector Half 6} {k : Kind} {q : Request} (h : parseArgs a k = some q) :
    carriesArgs a q := by
  cases k <;> simp only [parseArgs, Option.bind_eq_bind, Option.bind_eq_some_iff, Option.some.injEq,
    Option.pure_def, parseFin_eq_some, parseLength_eq_some, parseCount_eq_some] at h
  case lineDefine =>
    obtain ⟨l, hl, n, ⟨rfl, -, -⟩, src, hsrc, rfl⟩ := h
    exact ⟨hl.symm, joinHalves_toNat _ _, joinHalves_toNat _ _, parseSource_carries hsrc⟩
  case lineStart =>
    obtain ⟨l, hl, m, hm, rfl⟩ := h
    exact ⟨hl.symm, parseMode_carries hm⟩
  case tapAttach =>
    obtain ⟨t, ht, l, hl, b, hb, rfl⟩ := h
    exact ⟨ht.symm, hl.symm, joinHalves_toNat _ _, hb.symm, rfl⟩
  case tapRetarget =>
    obtain ⟨t, ht, k, hk, rfl⟩ := h
    exact ⟨ht.symm, joinHalves_toNat _ _, parseStep_carries hk⟩
  case tapGain =>
    obtain ⟨t, ht, b, hb, rfl⟩ := h
    exact ⟨ht.symm, rfl, hb.symm⟩
  case mark =>
    subst h
    trivial
  case blockWrite =>
    obtain ⟨n, ⟨rfl, -, -⟩, rfl⟩ := h
    exact ⟨joinHalves_toNat _ _, joinHalves_toNat _ _⟩
  case blockRead =>
    obtain ⟨n, ⟨rfl, -, -⟩, rfl⟩ := h
    exact ⟨joinHalves_toNat _ _, joinHalves_toNat _ _⟩
  case blockFill =>
    obtain ⟨n, ⟨rfl, -, -⟩, rfl⟩ := h
    exact ⟨joinHalves_toNat _ _, joinHalves_toNat _ _, formSample_toNat _ _⟩
  all_goals
    obtain ⟨x, hx, rfl⟩ := h
    exact hx.symm

/-- The mark state after a submission: the entry's own when it is the head at once (R71, R79). -/
theorem enqueue_mark (q : Request) (tag : Tag) (s : State) : (enqueue q tag s).req.mark =
    if s.req.queue ≠ [] then s.req.mark
    else if q = .mark then some (if s.eng.state = .stopped then .dueStopped else .unarmed) else none := by
  cases hqueue : s.req.queue with
  | nil => simp [hqueue, markOfHead]
  | cons e rest => simp [hqueue]

theorem stagedRequest_of_unknown {r : RequestUnit} (hkind : kindOfCode (r.kindTag.toNat / 256) = none) :
    stagedRequest r = .error .badKind := by
  simp only [stagedRequest, hkind]

theorem stagedRequest_of_refused {r : RequestUnit} {k : Kind} (hkind : kindOfCode (r.kindTag.toNat / 256) = some k)
    (hargs : parseArgs r.args k = none) : stagedRequest r = .error .badField := by
  simp only [stagedRequest, hkind, hargs]

theorem stagedRequest_of_admitted {r : RequestUnit} {k : Kind} {q : Request}
    (hkind : kindOfCode (r.kindTag.toNat / 256) = some k) (hargs : parseArgs r.args k = some q) :
    stagedRequest r = .ok (q, r.kindTag.setWidth 8) := by
  simp only [stagedRequest, hkind, hargs]

/-- Settles O31: the kinds by their definition, the submission by the first check that fails. -/
theorem submitChecksThenQueues : Obligations.SubmitChecksThenQueues := by
  unfold Obligations.SubmitChecksThenQueues
  refine ⟨fun _ _ _ _ _ _ _ _ _ _ => ⟨rfl, rfl, rfl, rfl, rfl, rfl, rfl, rfl, rfl, rfl, rfl, rfl, rfl⟩,
    fun s v hheld => ?_⟩
  have hexec : exec (.submit v) s = .next (submitStaged s) := exec_of_released (c := .submit v) rfl hheld
  rw [hexec, submitStaged]
  by_cases hfull : 8 ≤ s.req.queue.length
  · rw [if_pos hfull, if_pos hfull]
  rw [if_neg hfull, if_neg hfull]
  by_cases hkind : s.req.kindTag.toNat / 256 = 0 ∨ 13 < s.req.kindTag.toNat / 256
  · rw [if_pos hkind, stagedRequest_of_unknown ((kindOfCode_eq_none _).2 hkind)]
  rw [if_neg hkind]
  obtain ⟨k, hk⟩ := Option.ne_none_iff_exists'.1 (mt (kindOfCode_eq_none _).1 hkind)
  have hcode := kindCode_of_kindOfCode hk
  rw [← hcode]
  cases hargs : parseArgs s.req.args k with
  | none =>
    rw [if_pos (by rw [← parseArgs_isSome, hargs]; exact Bool.false_ne_true), stagedRequest_of_refused hk hargs]
  | some q =>
    rw [if_neg (by rw [← parseArgs_isSome, hargs]; exact not_not.2 rfl), stagedRequest_of_admitted hk hargs]
    refine ⟨q, s.req.kindTag.setWidth 8, by rw [parseArgs_kind _ _ _ hargs], parseArgs_carries hargs,
      BitVec.toNat_setWidth .., ?_⟩
    rw [← enqueue_mark]
    rfl

/-! ### Cancellation and the ring (R94 to R99) -/

theorem Entry.openTo_eq_true (tag : Tag) (e : Entry) : e.openTo tag = true ↔ e.tag = tag ∧ e.cancelled = false := by
  simp [Entry.openTo]

/-- The oldest open entry of a tag is the one marked (R98). -/
theorem markOldest_append {tag : Tag} {older younger : List Entry} {e : Entry} (he : e.openTo tag = true)
    (holder : ∀ o ∈ older, ¬ o.openTo tag = true) :
    markOldest tag (older ++ e :: younger) = older ++ { e with cancelled := true } :: younger := by
  induction older with
  | nil => exact if_pos he
  | cons o older ih =>
    rw [List.cons_append, List.cons_append, markOldest, if_neg (holder o List.mem_cons_self),
      ih fun p hp => holder p (List.mem_cons_of_mem _ hp)]

/-- A CANCEL that no moving transfer answers goes to the queue (R95, R96). -/
theorem cancelTag_of_not_moving {tag : Tag} {s : State} (h : ∀ x ∈ s.tx.active, x.final ≠ none ∨ x.tag ≠ tag) :
    cancelTag tag s = cancelQueued tag s := by
  unfold cancelTag
  split
  · next x hx =>
    refine if_neg fun ⟨hmoves, htag⟩ => ?_
    rcases h x hx with hended | hother
    · exact hended (Option.isNone_iff_eq_none.1 hmoves)
    · exact hother htag
  · rfl

/-- Settles O32: a CANCEL by the transfer and then by the queue, a POP by the ring. -/
theorem cancelAndPop : Obligations.CancelAndPop := by
  unfold Obligations.CancelAndPop
  intro s v hheld
  rw [show exec (.cancel v) s = _ from exec_of_released (c := .cancel v) rfl hheld,
    show exec (.pop v) s = _ from exec_of_released (c := .pop v) rfl hheld]
  refine ⟨fun x hx hmoves htag => ?moving, fun hother => ⟨fun older e younger hqueue htag hopen holder => ?queued,
    fun hnone => ?miss⟩, fun r rest hring => ?pop, fun hring => ?empty⟩
  case moving =>
    rw [cancelTag, hx]
    exact congrArg Host.Outcome.next (if_pos ⟨Option.isNone_iff_eq_none.2 hmoves, htag⟩)
  case queued =>
    have he : e.openTo (v.setWidth 8) = true := (Entry.openTo_eq_true _ e).2 ⟨htag, hopen⟩
    have hsome : s.req.queue.any (Entry.openTo (v.setWidth 8)) = true :=
      List.any_eq_true.2 ⟨e, by rw [hqueue]; exact List.mem_append_right _ List.mem_cons_self, he⟩
    rw [cancelTag_of_not_moving hother, cancelQueued, if_pos hsome, hqueue, markOldest_append he]
    intro o ho hopened
    obtain ⟨hotag, hoclear⟩ := (Entry.openTo_eq_true _ o).1 hopened
    rw [holder o ho hotag] at hoclear
    cases hoclear
  case miss =>
    rw [cancelTag_of_not_moving hother, cancelQueued, if_neg]
    intro hsome
    obtain ⟨e, he, hopened⟩ := List.any_eq_true.1 hsome
    obtain ⟨htag, hclear⟩ := (Entry.openTo_eq_true _ e).1 hopened
    rw [hnone e he htag] at hclear
    cases hclear
  case pop => rw [popRing, hring]; rfl
  case empty => rw [popRing, hring]; rfl

/-! ### The data port (R105 to R107, R113) -/

theorem pushSample_of_unexpected {s : State} (v : Sample)
    (h : ∀ x ∈ s.tx.active, x.final ≠ none ∨ x.kind ≠ .write ∨ x.count ≤ x.accepted) :
    pushSample v s = hostError .dataUnexpected s := by
  unfold pushSample
  split
  · rfl
  · next x hx =>
    refine if_neg fun ⟨hmoves, hkind, hroom⟩ => ?_
    rcases h x hx with hended | hother | hfull
    · exact hended (Option.isNone_iff_eq_none.1 hmoves)
    · exact hother hkind
    · omega

theorem pushSample_of_writing {s : State} {x : Transfer} (v : Sample) (hx : s.tx.active = some x)
    (hmoves : x.final = none) (hkind : x.kind = .write) (hroom : x.accepted < x.count) :
    pushSample v s = if 64 ≤ s.tx.fifo.length then hostError .dataOverrun s
      else settleRestarted { s with tx := { s.tx with
        active := some { x with accepted := x.accepted + 1 }, fifo := s.tx.fifo ++ [v] } } := by
  rw [pushSample, hx]
  exact if_pos ⟨Option.isNone_iff_eq_none.2 hmoves, hkind, hroom⟩

theorem popCell_of_reading {s : State} {x : Transfer} {v : Sample} {rest : List Sample}
    (hx : s.tx.active = some x) (hmoves : x.final = none) (hkind : x.kind = .read) (hfifo : s.tx.fifo = v :: rest) :
    popCell s = takeCell x v rest s := by
  rw [popCell, hx, hfifo]
  exact if_pos ⟨Option.isNone_iff_eq_none.2 hmoves, hkind⟩

theorem popCell_of_underrun {s : State}
    (h : s.tx.fifo = [] ∨ ∀ x ∈ s.tx.active, x.final ≠ none ∨ x.kind ≠ .read) :
    popCell s = hostError .dataUnderrun (readPair 0 s) := by
  unfold popCell
  split
  · next x v rest hx hfifo =>
    refine if_neg fun ⟨hmoves, hkind⟩ => ?_
    rcases h with hempty | h
    · rw [hempty] at hfifo
      cases hfifo
    rcases h x hx with hended | hother
    · exact hended (Option.isNone_iff_eq_none.1 hmoves)
    · exact hother hkind
  · rfl

/-- The two halves of a pair make it up (R137). -/
theorem highHalf_append_lowHalf (w : BitVec 32) : highHalf w ++ lowHalf w = w := by
  apply BitVec.eq_of_getLsbD_eq
  intro i hi
  rw [BitVec.getLsbD_append]
  by_cases hlow : i < 16
  · simp [hlow, lowHalf]
  · have hhigh : i - 16 < 16 := by omega
    have hsum : 16 + (i - 16) = i := by omega
    simp [hlow, highHalf, hhigh, hsum]

theorem sampleWord_toInt (v : Sample) : (sampleWord v).toInt = v.toInt :=
  BitVec.toInt_signExtend_of_le (by decide)

/-- Settles O33: a push and a pop by the transfer and the FIFO. -/
theorem dataPortPushesAndPops : Obligations.DataPortPushesAndPops := by
  unfold Obligations.DataPortPushesAndPops
  intro s hheld
  refine ⟨fun v => ?push, fun x cell rest hx hmoves hkind hfifo => ?pop, fun hunderrun => ?underrun⟩
  case push =>
    have hexec : exec (.dataHi v) s = .next (pushSample (formSample s.host.writeLatch v) s) :=
      exec_of_released (c := .dataHi v) rfl hheld
    rw [hexec]
    refine ⟨fun hidle => ?_, fun x hx => ⟨fun hother => ?_, fun hmoves hkind hroom hfull => ?_,
      fun hmoves hkind hroom hfree => ?_⟩⟩
    · rw [pushSample_of_unexpected _ fun x hx => by rw [hidle] at hx; cases hx]
    · rw [pushSample_of_unexpected _ fun y hy => by cases hx.symm.trans hy; exact hother]
    · rw [pushSample_of_writing _ hx hmoves hkind hroom, if_pos hfull]
    · rw [pushSample_of_writing _ hx hmoves hkind hroom, if_neg (Nat.not_le.2 hfree)]
      exact ⟨_, _, rfl, formSample_toNat _ _, rfl, settleRestarted_claim _ _ rfl, settleRestarted_timer_awaited _⟩
  case pop =>
    have hexec : exec .dataLo s = .next (popCell s) :=
      congrArg Host.Outcome.next (if_neg (by rw [hheld]; exact Bool.false_ne_true))
    rw [hexec, popCell_of_reading hx hmoves hkind hfifo]
    refine ⟨_, rfl, rfl, settleRestarted_claim _ _ rfl, settleRestarted_timer_awaited _, ?_⟩
    exact (congrArg BitVec.toInt (highHalf_append_lowHalf (sampleWord cell))).trans (sampleWord_toInt cell)
  case underrun =>
    have hexec : exec .dataLo s = .next (popCell s) :=
      congrArg Host.Outcome.next (if_neg (by rw [hheld]; exact Bool.false_ne_true))
    rw [hexec, popCell_of_underrun hunderrun]
    rfl

end Sys2Proof.Machine
end

section
/-! The register window: slots and views, inspection, status reads, pairs, events and configuration. -/

namespace Sys2Proof.Machine

/-! ### Slots and views (R138 to R142) -/

/-- INSPECT_SEL keeps bit 15 and the low seven bits (R142). -/
theorem selectionBits_toNat (v : Half) :
    (selectionBits v).toNat = 32768 * (v.toNat / 32768) + v.toNat % 128 := by
  have hlt := v.isLt
  have htop : (decide (v.toNat / 2 ^ 15 % 2 = 1)).toNat = v.toNat / 32768 := by
    by_cases hbit : v.toNat / 2 ^ 15 % 2 = 1
    · rw [decide_eq_true hbit, Bool.toNat_true]
      omega
    · rw [decide_eq_false hbit, Bool.toNat_false]
      omega
  have hmask : (0x807F : Half).toNat = 2 ^ 15 ||| (2 ^ 7 - 1) := by decide
  rw [selectionBits, BitVec.toNat_and, hmask, Nat.and_or_distrib_left, Nat.and_two_pow_sub_one_eq_mod,
    Nat.and_two_pow, Nat.testBit_eq_decide_div_mod_eq, htop, Nat.mul_comm,
    ← Nat.two_pow_add_eq_or_of_lt (by omega)]

theorem selectionBits_getLsbD (v : Half) : (selectionBits v).getLsbD 15 = decide (32768 ≤ v.toNat) := by
  have hlt := v.isLt
  rw [BitVec.getLsbD, Nat.testBit_eq_decide_div_mod_eq, selectionBits_toNat]
  refine decide_eq_decide.2 ?_
  omega

/-- The selected record by the bits of the halfword (R142). -/
theorem inspectSelected_selectionBits (s : State) (v : Half) : inspectSelected s (selectionBits v) =
    if 32768 ≤ v.toNat then inspectTap s.taps[(⟨v.toNat % 128, Nat.mod_lt _ (by decide)⟩ : Fin 128)]
    else inspectLine s.lines[(⟨v.toNat % 32, Nat.mod_lt _ (by decide)⟩ : Fin 32)]
      (tapCount s ⟨v.toNat % 32, Nat.mod_lt _ (by decide)⟩) := by
  have htap : (selectionBits v).toNat % 128 = v.toNat % 128 := by rw [selectionBits_toNat]; omega
  have hline : (selectionBits v).toNat % 32 = v.toNat % 32 := by rw [selectionBits_toNat]; omega
  simp only [inspectSelected, selectionBits_getLsbD, decide_eq_true_eq, htap, hline]

/-- Settles O34: each write is its row's change. -/
theorem slotsAndViews : Obligations.SlotsAndViews := by
  unfold Obligations.SlotsAndViews
  intro s v hheld
  refine ⟨fun p => exec_of_released (c := .lowHalfWrite p v) rfl hheld,
    fun i => ⟨_, formSample_toNat _ _, exec_of_released (c := .inputCommit i v) rfl hheld⟩,
    exec_of_released (c := .outLatch v) rfl hheld, selectionBits v, selectionBits_toNat v, ?_⟩
  rw [exec_of_released (c := .inspectSel v) rfl hheld, selectInspection, inspectSelected_selectionBits]

/-! ### Inspection (R150) -/

/-- The tap count as the number of a set of taps (R2). -/
theorem tapCount_eq_card (s : State) (l : Fin 32) [DecidablePred fun t : Fin 128 => ∃ r ∈ s.taps[t], r.line = l] :
    tapCount s l = (Finset.univ.filter fun t : Fin 128 => ∃ r ∈ s.taps[t], r.line = l).card := by
  rw [tapCount, List.countP_eq_length_filter,
    ← List.toFinset_card_of_nodup ((List.nodup_finRange 128).filter _)]
  congr 1
  ext t
  simp [Option.any_eq_true]

theorem lineCode_lt (m : LineMode) : lineCode m < 4 := by
  cases m <;> simp [lineCode]

theorem sourceCode_lt (src : Source) : (sourceCode src).1 < 2 ∧ (sourceCode src).2 < 16 := by
  cases src <;> simp [sourceCode]

/-- Settles O35: the codes by their definitions, the halfwords by arithmetic. -/
theorem inspectionHoldsTheRecord : Obligations.InspectionHoldsTheRecord := by
  unfold Obligations.InspectionHoldsTheRecord
  refine ⟨⟨rfl, rfl, fun _ => rfl⟩, ⟨rfl, rfl, fun _ => rfl⟩, fun i => ⟨rfl, rfl⟩, fun s l => tapCount_eq_card s l,
    fun r taps hrange htaps => ?line, fun r hcurrent htarget hstep => ?tap, ?undefined, rfl⟩
  case line =>
    obtain ⟨hlow, hhigh, hmem, hhead, hfill, hloop⟩ := (LineRec.inRange_iff _ _).1 hrange
    have hcode := lineCode_lt r.mode
    obtain ⟨hkind, hindex⟩ := sourceCode_lt r.source
    simp only [inspectLine, Vector.getElem_mk, List.getElem_toArray, List.getElem_cons_zero,
      List.getElem_cons_succ, BitVec.toNat_ofNat]
    refine ⟨?_, ?_, ?_, ?_, ?_, ?_, ?_, ?_, ?_⟩ <;> omega
  case tap =>
    have hbus := r.bus.isLt
    have hline := r.line.isLt
    simp only [inspectTap, Vector.getElem_mk, List.getElem_toArray, List.getElem_cons_zero,
      List.getElem_cons_succ, BitVec.toNat_ofNat]
    have hstate : (if r.gliding then 2 else 1) < 4 := by split <;> omega
    refine ⟨?_, ?_, ?_, ?_, ?_, ?_, trivial, trivial, trivial⟩ <;> omega
  case undefined =>
    rw [inspectLine, inspectNothing]
    ext i hi
    simp

/-! ### Status reads (R93, R136, R148, R149) -/

theorem ofNat_getLsbD (n : Nat) {i : Nat} (hi : i < 16) :
    (BitVec.ofNat 16 n).getLsbD i = decide (n / 2 ^ i % 2 = 1) := by
  rw [BitVec.getLsbD_ofNat, Nat.testBit_eq_decide_div_mod_eq]
  simp [hi]

theorem engineCode_lt (e : EngineState) : engineCode e < 4 := by
  cases e <;> simp [engineCode]

theorem transferCode_le (x : Option Transfer) : transferCode x ≤ 4 := by
  unfold transferCode
  repeat' split
  all_goals omega

theorem kindCode_lt (k : Kind) : kindCode k < 16 := by
  cases k <;> simp [kindCode]

theorem statusCode_lt (c : Status) : statusCode c < 16 := by
  cases c <;> simp [statusCode]

theorem auxCode_lt (a : Aux) : auxCode a < 4 := by
  cases a <;> simp [auxCode]

/-- The transfer code of a unit that is not IDLE (R149). -/
theorem transferCode_some (x : Transfer) : (x.final ≠ none → transferCode (some x) = 4) ∧
    (x.final = none → (x.kind = .write → transferCode (some x) = 1) ∧
      (x.kind = .read → transferCode (some x) = 2) ∧ ∀ v, x.kind = .fill v → transferCode (some x) = 3) := by
  refine ⟨fun hended => ?_, fun hmoves => ⟨fun hkind => ?_, fun hkind => ?_, fun v hkind => ?_⟩⟩
  · simp [transferCode, Option.isSome_iff_ne_none.2 hended]
  all_goals simp [transferCode, hmoves, hkind]

/-- ENGSTAT's fields (R149). -/
theorem engstat_fields (s : State) : (engstat s).toNat % 4 = engineCode s.eng.state ∧
    (engstat s).getLsbD 2 = s.eng.pendingTick ∧ (engstat s).toNat / 16 = transferCode s.tx.active := by
  have hengine := engineCode_lt s.eng.state
  have htransfer := transferCode_le s.tx.active
  rw [engstat, ofNat_getLsbD _ (by decide), BitVec.toNat_ofNat]
  cases s.eng.pendingTick
  all_goals
    simp only [Bool.toNat_false, Bool.toNat_true, decide_eq_true_eq, decide_eq_false_iff_not]
    omega

/-- MEMCFG's fields (R149). -/
theorem memcfg_fields (s : State) : (memcfg s).toNat % 4 = s.port.memsize.toNat ∧
    (memcfg s).getLsbD 8 = s.port.refreshOn := by
  have hsize := s.port.memsize.isLt
  rw [memcfg, ofNat_getLsbD _ (by decide), BitVec.toNat_ofNat]
  cases s.port.refreshOn
  all_goals
    simp only [Bool.toNat_false, Bool.toNat_true, decide_eq_true_eq, decide_eq_false_iff_not]
    omega

/-- Two bytes in a halfword. -/
theorem ofNat_bytes {high low : Nat} (hhigh : high < 256) (hlow : low < 256) :
    (BitVec.ofNat 16 (256 * high + low)).toNat / 256 = high ∧
      (BitVec.ofNat 16 (256 * high + low)).toNat % 256 = low := by
  rw [BitVec.toNat_ofNat]
  omega

/-- The write-only and undefined locations among the offsets (R136). -/
theorem plainRead_eq_zero {off : Offset} (s : State)
    (h : off ∈ [0x0F#7, 0x17#7, 0x18#7, 0x1D#7, 0x63#7] ∨ 0x6D ≤ off.toNat) : plainRead off.toNat s = 0 := by
  rcases h with hlisted | hbeyond
  · simp only [List.mem_cons, List.not_mem_nil, or_false] at hlisted
    rcases hlisted with rfl | rfl | rfl | rfl | rfl <;> rfl
  · have hlt := off.isLt
    generalize off.toNat = n at hbeyond hlt
    interval_cases n <;> rfl

/-- Settles O36: the value is what stands at the location, and its fields follow by arithmetic. -/
theorem statusReadsGiveTheirFields : Obligations.StatusReadsGiveTheirFields := by
  unfold Obligations.StatusReadsGiveTheirFields
  refine ⟨⟨rfl, rfl⟩, ⟨rfl, rfl, rfl, rfl⟩, ⟨rfl, transferCode_some⟩,
    ⟨rfl, rfl, rfl, rfl, rfl, rfl, rfl, rfl, rfl, rfl, rfl, rfl, rfl⟩,
    ⟨rfl, rfl, rfl, rfl, rfl, rfl, rfl, rfl, rfl, rfl⟩, ⟨rfl, fun _ => rfl, fun _ => rfl⟩, fun s hheld hwithin => ?_⟩
  obtain ⟨hqueue, hring, hdebt⟩ := hwithin
  obtain ⟨hengine, hpending, htransfer⟩ := engstat_fields s
  obtain ⟨hmemsize, hrefresh⟩ := memcfg_fields s
  obtain ⟨hdepth, hcount⟩ := ofNat_bytes (high := s.req.queue.length) (low := s.ring.length) (by omega) (by omega)
  obtain ⟨howed, hlate⟩ := ofNat_bytes (high := s.port.debt) (low := s.port.late.toNat) (by omega)
    s.port.late.isLt
  refine ⟨fun off => plainRead off.toNat s, fun off hdata hpair hhigh => ?read, ?source, hengine, hpending, htransfer,
    rfl, fun hglides => ?glides, hdepth, hcount, ?errors, ?flags, ?mask, hmemsize, hrefresh, ?refint, howed, hlate, rfl,
    rfl, rfl, fun k => ?args, fun r rest hr => ?record, fun hempty => ?empty, rfl, rfl, fun k => ?inspect,
    fun off hoff => plainRead_eq_zero s hoff⟩
  case read =>
    exact exec_lowHalfRead_plain hheld (fun heq => hdata (BitVec.eq_of_toNat_eq heq)) hpair hhigh
  case source =>
    have hsource : tickSourceCode s.eng.tickSource ≤ 2 := by cases s.eng.tickSource <;> simp [tickSourceCode]
    exact (BitVec.toNat_ofNat ..).trans (Nat.mod_eq_of_lt (by omega))
  case glides => exact (BitVec.toNat_ofNat ..).trans (Nat.mod_eq_of_lt (by omega))
  case errors => exact BitVec.toNat_setWidth_of_le (by decide)
  case flags => exact BitVec.toNat_setWidth_of_le (by decide)
  case mask => exact BitVec.toNat_setWidth_of_le (by decide)
  case refint => exact BitVec.toNat_setWidth_of_le (by decide)
  case args => fin_cases k <;> rfl
  case record =>
    have hhead : ringTagKind s = BitVec.ofNat 16 (256 * kindCode r.kind + r.tag.toNat) := by rw [ringTagKind, hr]
    have hstatus : ringStatus s = BitVec.ofNat 16 (256 * auxCode r.aux + statusCode r.status) := by
      rw [ringStatus, hr]
    obtain ⟨hkind, htag⟩ := ofNat_bytes (high := kindCode r.kind) (low := r.tag.toNat)
      (by have := kindCode_lt r.kind; omega) r.tag.isLt
    obtain ⟨haux, hcode⟩ := ofNat_bytes (high := auxCode r.aux) (low := statusCode r.status)
      (by have := auxCode_lt r.aux; omega) (by have := statusCode_lt r.status; omega)
    rw [← hhead] at hkind htag
    rw [← hstatus] at haux hcode
    exact ⟨hkind, htag, hcode, haux⟩
  case empty =>
    have hhead : ringTagKind s = 0 := by rw [ringTagKind, hempty]
    have hstatus : ringStatus s = 0 := by rw [ringStatus, hempty]
    exact ⟨hhead, hstatus⟩
  case inspect => fin_cases k <;> rfl

end Sys2Proof.Machine
end

section
/-! Latched pairs, events and host errors, and the registers of configuration. -/

namespace Sys2Proof.Machine

/-! ### Pairs and the read holding latch (R137) -/

/-- The low bits of a value, as a truncation and as a field. -/
theorem setWidth_eq_extractLow {n : Nat} (w : Nat) (x : BitVec n) : x.setWidth w = x.extractLsb' 0 w := by
  apply BitVec.eq_of_getLsbD_eq
  intro i hi
  simp

theorem highHalf_eq (w : BitVec 32) : highHalf w = w.extractLsb' 16 16 := by
  apply BitVec.eq_of_getLsbD_eq
  intro i hi
  simp [highHalf]

theorem isLatchedHigh_eq_true (n : Nat) : isLatchedHigh n = true ↔
    n ∈ [0x03, 0x1C, 0x1F, 0x61] ∨ (0x21 ≤ n ∧ n ≤ 0x5F ∧ n % 2 = 1) := by
  simp only [isLatchedHigh, Bool.or_eq_true, Bool.and_eq_true, decide_eq_true_eq, List.mem_cons, List.not_mem_nil,
    or_false]
  omega

theorem latchedPair_ne_none (n : Nat) (s : State) : latchedPair n s ≠ none ↔
    n ∈ [0x02, 0x1B, 0x60] ∨ (0x20 ≤ n ∧ n ≤ 0x5E ∧ n % 2 = 0) := by
  simp only [List.mem_cons, List.not_mem_nil, or_false]
  unfold latchedPair
  split_ifs <;> simp only [ne_eq, reduceCtorEq, not_true_eq_false, not_false_eq_true, true_iff, false_iff] <;> omega

theorem exec_lowHalfRead_pair {s : State} {off : Offset} {w : BitVec 32} (hheld : s.held = false)
    (hpair : latchedPair off.toNat s = some w) : exec (.lowHalfRead off) s = .next (readPair w s) := by
  have hdata : off.toNat ≠ 0x1E := by
    intro hdata
    rw [hdata] at hpair
    cases hpair
  rw [exec_lowHalfRead_of_released hheld, readWindow, if_neg hdata, hpair]

theorem exec_lowHalfRead_high {s : State} {off : Offset} (hheld : s.held = false)
    (hhigh : isLatchedHigh off.toNat = true) :
    exec (.lowHalfRead off) s = .next { s with host := { s.host with dataOut := s.host.readLatch } } := by
  have hodd := (isLatchedHigh_eq_true _).1 hhigh
  simp only [List.mem_cons, List.not_mem_nil, or_false] at hodd
  have hdata : off.toNat ≠ 0x1E := by omega
  have hpair : latchedPair off.toNat s = none := by
    by_contra hpair
    have heven := (latchedPair_ne_none _ s).1 hpair
    simp only [List.mem_cons, List.not_mem_nil, or_false] at heven
    omega
  rw [exec_lowHalfRead_of_released hheld, readWindow, if_neg hdata, hpair, hhigh]
  rfl

/-- Settles O37: a read by whether its offset is the low half, the high half, or no half of a pair. -/
theorem pairReadsThroughLatch : Obligations.PairReadsThroughLatch := by
  unfold Obligations.PairReadsThroughLatch
  intro s hheld
  refine ⟨fun off w hpair => ?_, fun off hoff => ?_, fun off => isLatchedHigh_eq_true _,
    fun off => latchedPair_ne_none _ s, rfl, rfl, fun hempty => ?_, fun r rest hr => ?_, fun i => ?_, fun b => ?_⟩
  · rw [exec_lowHalfRead_pair hheld hpair, readPair, lowHalf, setWidth_eq_extractLow, highHalf_eq]
  · exact exec_lowHalfRead_high hheld ((isLatchedHigh_eq_true _).2 hoff)
  · exact congrArg some (by rw [ringAux, hempty])
  · have haux : ringAux s = auxValue r.aux := by rw [ringAux, hr]
    refine congrArg some (haux.trans ?_)
    cases r.aux <;> rfl
  · fin_cases i <;> rfl
  · fin_cases b <;> rfl

/-! ### Events and host errors (R146, R153) -/

theorem hostError_eq (e : HostError) (s : State) : hostError e s = { s with
    host := { s.host with errors := s.host.errors ||| (1#9 <<< hostErrorBit e) }
    ev := if s.host.errors.getLsbD (hostErrorBit e) then s.ev else raiseFlag .hostError s.ev } := by
  unfold hostError
  cases s.host.errors.getLsbD (hostErrorBit e) <;> rfl

/-- Settles O38: the codes by their definitions, the flags bit by bit. -/
theorem eventsAndHostErrorsRise : Obligations.EventsAndHostErrorsRise := by
  unfold Obligations.EventsAndHostErrorsRise
  exact ⟨⟨rfl, rfl, rfl, rfl, rfl, rfl, rfl, rfl, rfl⟩, ⟨rfl, rfl, rfl, rfl, rfl, rfl, rfl, rfl, rfl⟩,
    fun e ev => ⟨rfl, fun i _ => raiseFlag_flags_getLsbD e ev i⟩, hostError_eq⟩

theorem irq_eq_true (s : State) :
    irq s = true ↔ ∃ i < 9, s.ev.flags.getLsbD i = true ∧ s.ev.mask.getLsbD i = true := by
  rw [irq, bne_iff_ne, ne_eq]
  constructor
  · intro hne
    by_contra hnone
    refine hne (BitVec.eq_of_getLsbD_eq fun i hi => ?_)
    have hclear : BitVec.getLsbD (0 : BitVec 9) i = false := BitVec.getLsbD_zero
    rw [hclear, BitVec.getLsbD_and, ← Bool.not_eq_true, Bool.and_eq_true]
    exact fun hset => hnone ⟨i, hi, hset⟩
  · rintro ⟨i, -, hflag, hmask⟩ hzero
    have hbit := congrArg (fun w => w.getLsbD i) hzero
    simp [hflag, hmask] at hbit

/-- Settles O40: the mask by its bits, and IRQ by the flags it gates. -/
theorem maskActsOnIrqOnly : Obligations.MaskActsOnIrqOnly := by
  unfold Obligations.MaskActsOnIrqOnly
  refine ⟨fun s v hheld => ⟨v.setWidth 9, exec_of_released (c := .evmask v) rfl hheld, fun i hi => ?stored, ?read⟩,
    fun e flags m m' => rfl, fun s t t' m v ht ht' => ?flags, irq_eq_true⟩
  case stored =>
    rw [BitVec.getLsbD_setWidth, decide_eq_true hi, Bool.true_and]
  case read =>
    refine ⟨s.ev.mask.setWidth 16, exec_lowHalfRead_plain hheld (by decide) rfl rfl, fun i hi => ?_, fun i hi => ?_⟩
    · rw [BitVec.getLsbD_setWidth, decide_eq_true (by omega), Bool.true_and]
    · rw [BitVec.getLsbD_setWidth, BitVec.getLsbD_of_ge _ i hi, Bool.and_false]
  case flags =>
    cases ht
    cases ht'
    cases hheld : s.held <;> simp [whenReleased, hheld, clearEvents]

/-- A clearing write leaves the host error flags that were set and whose bit in the halfword is 0 (R147). -/
theorem clearErrors_errors_getLsbD (v : Half) (s : State) (i : Nat) :
    (clearErrors v s).host.errors.getLsbD i = (s.host.errors.getLsbD i && !v.getLsbD i) := by
  have herrors : (clearErrors v s).host.errors = s.host.errors &&& ~~~(v.setWidth 9) := rfl
  rw [herrors, BitVec.getLsbD_and, BitVec.getLsbD_not, BitVec.getLsbD_setWidth]
  by_cases hi : i < 9
  · simp [hi]
  · simp [hi, BitVec.getLsbD_of_ge s.host.errors i (Nat.le_of_not_lt hi)]

theorem hostErrorBit_lt (e : HostError) : hostErrorBit e < 9 := by
  cases e <;> decide

theorem hostError_errors_getLsbD (e : HostError) (s : State) :
    (hostError e s).host.errors.getLsbD (hostErrorBit e) = true := by
  rw [hostError_host, BitVec.getLsbD_or, BitVec.getLsbD_twoPow]
  simp [hostErrorBit_lt]

/-- Settles O41: a flag written with 1 is clear, so its next cause sets it and raises HOST_ERROR. -/
theorem hosterrWriteClears : Obligations.HosterrWriteClears := by
  unfold Obligations.HosterrWriteClears
  intro s v hheld
  refine ⟨_, exec_of_released (c := .hosterr v) rfl hheld, rfl, fun i _ => clearErrors_errors_getLsbD v s i,
    ⟨s.host.errors.setWidth 16, exec_lowHalfRead_plain hheld (by decide) rfl rfl,
      BitVec.toNat_setWidth_of_le (by decide)⟩,
    fun e hwritten => ⟨hostError_errors_getLsbD e _, ?_⟩, fun c hc => ?_⟩
  · rw [hostError_ev, clearErrors_errors_getLsbD, hwritten, Bool.not_true, Bool.and_false]
    rfl
  · rcases hc with rfl | rfl
    · exact ⟨_, exec_of_released (c := .softReset) rfl hheld, rfl, rfl⟩
    · exact ⟨_, rfl, rfl, rfl⟩

/-! ### Memory configuration (R128 to R130) -/

open Classical in
/-- Settles O42: each field by its check, and the whole write as its two rows. -/
theorem memcfgFields : Obligations.MemcfgFields := by
  unfold Obligations.MemcfgFields
  intro s hheld
  refine ⟨fun code => ?memsize, fun on => ?refresh, fun v t ht => ?both⟩
  case memsize =>
    rw [exec_of_released (c := .memsize code) rfl hheld, setMemsize]
    refine congrArg Host.Outcome.next (if_congr Iff.rfl rfl (if_congr ?_ rfl rfl))
    simp only [memsizeRefused, Bool.or_eq_true, decide_eq_true_eq, someLine_eq_true, Option.isSome_iff_ne_none,
      or_assoc]
    rfl
  case refresh =>
    rw [exec_of_released (c := .refreshEnable on) rfl hheld, setRefresh]
    cases on <;> rfl
  case both =>
    rw [← setWidth_eq_extractLow] at ht
    rw [exec_eq_effect, exec_eq_effect, effect_registerWrite_eq_runRows, ← effect_of_exec ht]
    rfl

theorem extractLow_toNat (v : Half) : (v.extractLsb' 0 8).toNat = v.toNat % 256 := by
  rw [← setWidth_eq_extractLow, BitVec.toNat_setWidth]

theorem lowByte_eq_zero (v : Half) : v.setWidth 8 = (0 : BitVec 8) ↔ v.toNat % 256 = 0 := by
  rw [← BitVec.toNat_inj, BitVec.toNat_setWidth]
  rfl

theorem setRefint_of_zero {v : Half} (h : v.toNat % 256 = 0) (s : State) :
    setRefint v s = hostError .configBusy s :=
  if_pos ((lowByte_eq_zero v).2 h)

theorem setRefint_of_nonzero {v : Half} (h : v.toNat % 256 ≠ 0) (s : State) :
    setRefint v s = { s with port := { s.port with refint := v.extractLsb' 0 8 } } := by
  rw [setRefint, if_neg (mt (lowByte_eq_zero v).1 h), setWidth_eq_extractLow]

/-- Settles O43: the stored period is what every later start of the timer takes. -/
theorem refintTakesEffectAtNextStart : Obligations.RefintTakesEffectAtNextStart := by
  unfold Obligations.RefintTakesEffectAtNextStart
  intro s v hheld
  have hexec : ∀ u : State, u.held = false → exec (.refint v) u = .next (setRefint v u) :=
    fun u hu => exec_of_released (c := .refint v) rfl hu
  refine ⟨fun hzero => by rw [hexec s hheld, setRefint_of_zero hzero], fun hperiod => ?stored⟩
  case stored =>
    have hstart := congrArg some (extractLow_toNat v)
    refine ⟨_, by rw [hexec s hheld, setRefint_of_nonzero hperiod], rfl, ?read, fun hruns => ?expiry,
      fun hruns => ?inProgress, fun hoff => ?enable⟩
    case read =>
      exact ⟨_, exec_lowHalfRead_plain hheld (by decide) rfl rfl,
        (BitVec.toNat_setWidth_of_le (by decide)).trans (extractLow_toNat v)⟩
    case expiry =>
      obtain ⟨n, hn⟩ := Option.ne_none_iff_exists'.1 hruns
      exact ⟨_, exec_refreshTimerExpiry_of_running hheld hn, hstart⟩
    case inProgress =>
      obtain ⟨n, hn⟩ := Option.ne_none_iff_exists'.1 hruns
      refine ⟨_, _, exec_refreshTimerExpiry_of_running hheld hn, hexec (refreshExpires s) hheld, ?_⟩
      rw [setRefint_of_nonzero hperiod]
      rfl
    case enable =>
      refine ⟨_, exec_of_released (c := .refreshEnable true) rfl hheld, ?_⟩
      rw [setRefresh, if_neg (by rw [hoff]; exact Bool.false_ne_true)]
      exact hstart

/-! ### Writes of one register (R49, R55, R67, R127, R136) -/

theorem exec_registerWrite {s : State} (hheld : s.held = false) (off : Offset) (v : Half) :
    exec (.registerWrite off v) s = .next (writeWindow off v s) :=
  exec_of_released (c := .registerWrite off v) rfl hheld

/-- A location that is read-only or undefined takes no write (R136). -/
theorem writeWindow_of_readOnly {off : Offset} (v : Half) (s : State)
    (h : off.toNat ∈ [0x01, 0x02, 0x03, 0x05, 0x06, 0x0F, 0x19, 0x1A, 0x1B, 0x1C] ∨
      (0x40 ≤ off.toNat ∧ off.toNat ≤ 0x62) ∨ 0x65 ≤ off.toNat) : writeWindow off v s = s := by
  have hlt := off.isLt
  unfold writeWindow
  generalize off.toNat = n at h hlt ⊢
  rcases h with hlisted | ⟨hlow, hhigh⟩ | hbeyond
  · simp only [List.mem_cons, List.not_mem_nil, or_false] at hlisted
    rcases hlisted with rfl | rfl | rfl | rfl | rfl | rfl | rfl | rfl | rfl | rfl <;> rfl
  · interval_cases n <;> rfl
  · interval_cases n <;> rfl

/-- Settles O44: the rows of one register, and the offsets that no row of a write reaches. -/
theorem registerWritesStoreOrClear : Obligations.RegisterWritesStoreOrClear := by
  unfold Obligations.RegisterWritesStoreOrClear
  intro s v hheld
  refine ⟨exec_of_released (c := .overrunWrite v) rfl hheld, exec_of_released (c := .refstat v) rfl hheld,
    exec_of_released (c := .stalemask v) rfl hheld, exec_registerWrite hheld _ v, fun k => ?_, fun off hoff => ?_⟩
  · rw [exec_registerWrite hheld]
    fin_cases k <;> rfl
  · rw [exec_registerWrite hheld, writeWindow_of_readOnly v s hoff]

end Sys2Proof.Machine
end

section
/-! The two resets, the reset values, and the invariants at reset. -/

namespace Sys2Proof.Machine

/-- Settles O45: the part of the port that a soft reset keeps, and the operation in flight disowned. -/
theorem softResetKeepsMemory : Obligations.SoftResetKeepsMemory := by
  unfold Obligations.SoftResetKeepsMemory
  intro s hheld
  have hreleased : softReset s = { softReset s with held := false } :=
    congrArg (fun held => { softReset s with held := held }) hheld
  refine ⟨softReset s, exec_of_released (c := .softReset) rfl hheld, hreleased, fun hnone => ?_, fun o ho => ?_⟩
  · exact congrArg (Option.map _) hnone
  · exact congrArg (Option.map _) ho

theorem irq_of_no_flag {s : State} (h : s.ev.flags = 0) : irq s = false := by
  simp [irq, h]

/-- Settles O46: the reset values by their definitions. -/
theorem deviceResetAndRelease : Obligations.DeviceResetAndRelease := by
  unfold Obligations.DeviceResetAndRelease
  refine ⟨fun s => ⟨⟨_, rfl, rfl, rfl, rfl, rfl, irq_of_no_flag rfl⟩, rfl⟩, reset_lines, reset_taps, rfl, rfl, rfl, rfl,
    rfl, rfl, rfl, rfl, rfl, rfl, rfl, rfl, rfl, rfl, rfl, rfl, rfl, rfl, rfl, rfl, rfl, rfl, rfl⟩

theorem transferSound_reset : TransferSound State.reset :=
  (transferSound_iff _).2 ⟨⟨by decide, fun _ => ⟨rfl, rfl, rfl⟩, Bool.noConfusion, by rintro _ ⟨⟩, by rintro _ ⟨⟩,
    by rintro _ ⟨⟩, by rintro _ ⟨⟩⟩, fun _ he => absurd he List.not_mem_nil⟩

theorem engineSound_reset : EngineSound State.reset :=
  (engineSound_iff _).2 ⟨⟨fun _ => ⟨rfl, rfl⟩, Bool.noConfusion, fun _ _ => rfl, by rintro _ ⟨⟩, by rintro _ ⟨⟩⟩,
    by decide, accWithin_zero 0⟩

/-- Settles O48: each invariant by what it asks of empty tables, queues and ports. -/
theorem resetMeetsEveryInvariant : Obligations.ResetMeetsEveryInvariant := by
  unfold Obligations.ResetMeetsEveryInvariant
  exact ⟨(linesSound_iff _).2 ⟨regionsSound_none, fun _ he => absurd he List.not_mem_nil⟩,
    (tapsSound_iff _).2 tapsFit_none, (glidesSound_iff _).2 glidesCounted_none,
    (transferClear_iff _).2 (by rintro _ ⟨⟩), ⟨by decide, by decide, by decide⟩, fun _ => rfl, engineSound_reset,
    transferSound_reset, transferPrompt_of_not_moving (by rintro _ ⟨⟩) rfl, ⟨rfl, by decide, fun _ => rfl⟩,
    Bool.noConfusion, markSound_of_fresh_head rfl, reset_dram_wf⟩

end Sys2Proof.Machine
end
